-- ==== Sys2Proof/Word.lean ====
section
/-! DEFINITION. Bytes, addresses and the plain index types of the block: endpoints, directions and the
two halves of a ping-pong pair, with the fixed-size containers indexed by them (R7, R8, R9, R32, R40, R42). -/

namespace Sys2Proof

/-- A byte of the byte-addressed space (R80). -/
abbrev Byte := BitVec 8

/-- A buffer address: 32 bits (R6 `ADDR_WIDTH`, R80). -/
abbrev Addr := BitVec 32

/-- `le16(b0, b1) = b0 + 256*b1` (R8). -/
def le16 (b0 b1 : Byte) : BitVec 16 := b1 ++ b0

/-- `lo(v) = v[7:0]` (R8). -/
def lo8 (v : BitVec 16) : Byte := v.extractLsb' 0 8

/-- `hi(v) = v[15:8]` (R8). -/
def hi8 (v : BitVec 16) : Byte := v.extractLsb' 8 8

/-- A 32-bit value from its four bytes, least significant byte first (R84). -/
def le32 (b0 b1 b2 b3 : Byte) : BitVec 32 := b3 ++ b2 ++ b1 ++ b0

/-- The four bytes of a 32-bit value, least significant byte first (R84). -/
def bytes32 (v : BitVec 32) : List Byte :=
  [v.extractLsb' 0 8, v.extractLsb' 8 8, v.extractLsb' 16 8, v.extractLsb' 24 8]

/-- The two bytes of a 16-bit value, least significant byte first (R84). -/
def bytes16 (v : BitVec 16) : List Byte := [lo8 v, hi8 v]

/-- The endpoint numbers: 4 bits (R119, R127). Those below `NUM_EP` are endpoints of the block (R6; log 36). -/
inductive EpId where
  | ep0 | ep1 | ep2 | ep3 | ep4 | ep5 | ep6 | ep7
  | ep8 | ep9 | ep10 | ep11 | ep12 | ep13 | ep14 | ep15
  deriving DecidableEq, Repr, Inhabited

/-- The value of an endpoint number. -/
def EpId.num : EpId → Nat
  | .ep0 => 0 | .ep1 => 1 | .ep2 => 2 | .ep3 => 3
  | .ep4 => 4 | .ep5 => 5 | .ep6 => 6 | .ep7 => 7
  | .ep8 => 8 | .ep9 => 9 | .ep10 => 10 | .ep11 => 11
  | .ep12 => 12 | .ep13 => 13 | .ep14 => 14 | .ep15 => 15

/-- The endpoint number of a value, if it has 4 bits. -/
def EpId.ofNat? : Nat → Option EpId
  | 0 => some .ep0 | 1 => some .ep1 | 2 => some .ep2 | 3 => some .ep3
  | 4 => some .ep4 | 5 => some .ep5 | 6 => some .ep6 | 7 => some .ep7
  | 8 => some .ep8 | 9 => some .ep9 | 10 => some .ep10 | 11 => some .ep11
  | 12 => some .ep12 | 13 => some .ep13 | 14 => some .ep14 | 15 => some .ep15
  | _ => none

/-- `RX = 0` (OUT, host to device) or `TX = 1` (IN, device to host) (R32). -/
inductive Dir where
  | rx | tx
  deriving DecidableEq, Repr, Inhabited

/-- One value per direction. -/
structure DirPair (α : Type) where
  rx : α
  tx : α
  deriving DecidableEq, Repr, Inhabited

/-- One value per buffer half: `even` is k = 0, `odd` is k = 1 (R9, R42). -/
structure HalfPair (α : Type) where
  even : α
  odd  : α
  deriving DecidableEq, Repr, Inhabited

/-- One value per endpoint number. -/
structure EpBank (α : Type) where
  ep0 : α
  ep1 : α
  ep2 : α
  ep3 : α
  ep4 : α
  ep5 : α
  ep6 : α
  ep7 : α
  ep8 : α
  ep9 : α
  ep10 : α
  ep11 : α
  ep12 : α
  ep13 : α
  ep14 : α
  ep15 : α
  deriving DecidableEq, Repr, Inhabited

/-- The value of one direction. -/
def DirPair.get {α : Type} (p : DirPair α) : Dir → α
  | .rx => p.rx
  | .tx => p.tx

/-- The pair with one direction's value replaced. -/
def DirPair.set {α : Type} (p : DirPair α) (d : Dir) (v : α) : DirPair α :=
  match d with
  | .rx => { p with rx := v }
  | .tx => { p with tx := v }

/-- The value of half `k`: `false` is 0 (even), `true` is 1 (odd). -/
def HalfPair.get {α : Type} (p : HalfPair α) (k : Bool) : α :=
  if k then p.odd else p.even

/-- The pair with half `k` replaced. -/
def HalfPair.set {α : Type} (p : HalfPair α) (k : Bool) (v : α) : HalfPair α :=
  if k then { p with odd := v } else { p with even := v }

/-- The value of one endpoint. -/
def EpBank.get {α : Type} (b : EpBank α) : EpId → α
  | .ep0 => b.ep0 | .ep1 => b.ep1 | .ep2 => b.ep2 | .ep3 => b.ep3
  | .ep4 => b.ep4 | .ep5 => b.ep5 | .ep6 => b.ep6 | .ep7 => b.ep7
  | .ep8 => b.ep8 | .ep9 => b.ep9 | .ep10 => b.ep10 | .ep11 => b.ep11
  | .ep12 => b.ep12 | .ep13 => b.ep13 | .ep14 => b.ep14 | .ep15 => b.ep15

/-- The bank with one endpoint's value replaced. -/
def EpBank.set {α : Type} (b : EpBank α) (e : EpId) (v : α) : EpBank α :=
  match e with
  | .ep0 => { b with ep0 := v } | .ep1 => { b with ep1 := v }
  | .ep2 => { b with ep2 := v } | .ep3 => { b with ep3 := v }
  | .ep4 => { b with ep4 := v } | .ep5 => { b with ep5 := v }
  | .ep6 => { b with ep6 := v } | .ep7 => { b with ep7 := v }
  | .ep8 => { b with ep8 := v } | .ep9 => { b with ep9 := v }
  | .ep10 => { b with ep10 := v } | .ep11 => { b with ep11 := v }
  | .ep12 => { b with ep12 := v } | .ep13 => { b with ep13 := v }
  | .ep14 => { b with ep14 := v } | .ep15 => { b with ep15 := v }

/-- A bank from a value per endpoint. -/
def EpBank.tabulate {α : Type} (f : EpId → α) : EpBank α :=
  ⟨f .ep0, f .ep1, f .ep2, f .ep3, f .ep4, f .ep5, f .ep6, f .ep7,
   f .ep8, f .ep9, f .ep10, f .ep11, f .ep12, f .ep13, f .ep14, f .ep15⟩

/-- Every endpoint number, in order. -/
def allEps : List EpId :=
  [.ep0, .ep1, .ep2, .ep3, .ep4, .ep5, .ep6, .ep7,
   .ep8, .ep9, .ep10, .ep11, .ep12, .ep13, .ep14, .ep15]

/-- A range of addresses: `size` bytes from `base` on (R81). -/
structure Region where
  base : Nat
  size : Nat
  deriving DecidableEq, Repr, Inhabited

end Sys2Proof
end

