-- ==== Sys2Proof/Config.lean ====
section
/-! DEFINITION. What an implementation fixes: the parameters of R6 as plain data (the state carries
them in `State.cfg`, so every statement about a state is a statement for every configuration), the
record types the hooks see, and the free values the spec leaves open, as constants with no body. -/

namespace Sys2Proof

/-- Device connection state, with the codes of D58: Attached 0 … Suspended 4 (R30). -/
inductive ConnState where
  | attached | default | addressed | configured | suspended
  deriving DecidableEq, Repr, Inhabited

/-- Endpoint phase, with the codes of D58: Idle 0 … Complete 8 (R31). No rule enters
`throttle` or `complete` (D69). -/
inductive Phase where
  | idle | dataIn | dataOut | lastIn | statusIn | statusOut | throttle | stall | complete
  deriving DecidableEq, Repr, Inhabited

/-- A one-shot completion callback (R33). The absent callback is `none` of `Option Callback`. -/
inductive Callback where
  | commitAddress
  | applyLineCoding
  | client (id : Nat)
  | vendor (id : Nat)
  deriving DecidableEq, Repr, Inhabited

/-- Stall causes S1 … S10 (R441). -/
inductive StallCause where
  | s1 | s2 | s3 | s4 | s5 | s6 | s7 | s8 | s9 | s10
  deriving DecidableEq, Repr, Inhabited

/-- Fault reasons F1 … F5 (R443): NOT_IDLE, NOT_CLIENT_ENDPOINT, NULL_TOO_LONG,
UNEXPECTED_COMPLETION, WRONG_DIRECTION. -/
inductive FaultReason where
  | f1 | f2 | f3 | f4 | f5
  deriving DecidableEq, Repr, Inhabited

/-- The 7-byte line coding by its fields (R121). -/
structure LineCoding where
  dwDTERate   : BitVec 32
  bCharFormat : Byte
  bParityType : Byte
  bDataBits   : Byte
  deriving DecidableEq, Repr, Inhabited

/-- The payload of a `Log` event (R445). -/
inductive LogPayload where
  | fault (r : FaultReason)
  | requestError (c : StallCause)
  | busError (v : Byte)
  | spuriousResume
  deriving DecidableEq, Repr, Inhabited

/-- Output events (R50). -/
inductive OutEvent where
  | log (x : LogPayload)
  | completed (e : EpId) (id : Nat) (n : BitVec 16)
  | sof (frame : BitVec 11)
  | backendSetLineCoding (b : LineCoding)
  | backendSetControlLineState (bits : BitVec 2)
  | backendSendBreak (duration : BitVec 16)
  | backendGetLineCoding
  deriving DecidableEq, Repr, Inhabited

/-- The 8-byte setup packet by its fields (R111). -/
structure Setup where
  bmRequestType : Byte
  bRequest      : Byte
  wValue        : BitVec 16
  wIndex        : BitVec 16
  wLength       : BitVec 16
  deriving DecidableEq, Repr, Inhabited

/-- `DeviceState` (R34) with the interrupt, error and frame registers (R37, R38, R39). Bit 3 of
`istat` (TOKDNE) is not kept here: it follows the token queue (R45, R166; log 18). -/
structure DeviceState where
  conn         : ConnState
  config       : BitVec 8
  addr         : BitVec 7
  pendingAddr  : BitVec 7
  selfPowered  : Bool
  remoteWakeup : Bool
  epActive     : Bool
  istat        : BitVec 8
  inten        : BitVec 8
  errstat      : BitVec 8
  frame        : BitVec 11
  deriving DecidableEq, Repr, Inhabited

/-- The outcome of a request (R273). In `dataIn` the length is the reply's natural length, which
`wLength` later cuts; the length of a `dataOut` is the request's `wLength` (R132, R275). -/
inductive ReqOutcome where
  | dataIn  (a : Addr) (len : Nat) (cb : Option Callback)
  | dataOut (a : Addr) (cb : Option Callback)
  | noData  (cb : Option Callback)
  | stall   (cause : StallCause)
  deriving DecidableEq, Repr, Inhabited

/-- A call the block makes on the serial backend (R419). -/
inductive BackendCall where
  | setLineCoding (b : LineCoding)
  | getLineCoding
  | setControlLineState (bits : BitVec 2)
  | sendBreak (duration : BitVec 16)
  deriving DecidableEq, Repr, Inhabited

/-- What a vendor hook answers (R410): the bytes it writes in the 7-byte staging buffer, the backend
calls it makes, and its outcome. Nothing else is within a hook's contract. -/
structure HookReply where
  staging : List (Fin 7 × Byte)
  calls   : List BackendCall
  outcome : ReqOutcome
  deriving DecidableEq, Repr, Inhabited

/-- One row of `VENDOR_HOOK`: what it answers a packet, in the device state given or in every one. -/
structure HookRow where
  packet : Setup
  dev    : Option DeviceState
  reply  : HookReply
  deriving DecidableEq, Repr, Inhabited

/-- One row of `SOF_HOOK`: the output events it emits for a frame (R376). -/
structure SofRow where
  frame  : BitVec 11
  events : List OutEvent
  deriving DecidableEq, Repr, Inhabited

/-- One row of `BACKEND_APPLY`: the coding the backend applies for the coding it is given (R413). -/
structure ApplyRow where
  given   : LineCoding
  applied : LineCoding
  deriving DecidableEq, Repr, Inhabited

/-- The transfer type of an endpoint in `EP_MAP` (R6). -/
inductive EpType where
  | control | bulk | interrupt
  deriving DecidableEq, Repr, Inhabited

/-- The direction of an endpoint in `EP_MAP`: both, or one (R6). -/
inductive EpDir where
  | both
  | only (d : Dir)
  deriving DecidableEq, Repr, Inhabited

/-- A maximum packet size as `EP_MAP` names it: a size parameter, or a number of bytes (R6). -/
inductive EpMps where
  | ep0Mps | bulkMps | intMps
  | bytes (n : Nat)
  deriving DecidableEq, Repr, Inhabited

/-- An entry of `EP_MAP` (R6). -/
structure EpEntry where
  type  : EpType
  dir   : EpDir
  mps   : EpMps
  iface : Option (BitVec 8)
  deriving DecidableEq, Repr, Inhabited

/-- The parameters of R6, each an argument of the model (log 3). The hooks are tables, since a state is
plain data: a function of finitely many arguments is one (log 19, log 20). -/
structure Params where
  /-- `NUM_EP`: at least 2 (R57) and, an endpoint number having 4 bits, at most 16 (log 36). -/
  numEp : Nat
  /-- `EP_MAP`: the entry of endpoint e is at index e (log 36). -/
  epMap : List EpEntry
  /-- `NUM_IF`. -/
  numIf : Nat
  /-- `IF_VENDOR`. -/
  ifVendor : BitVec 8
  /-- `IF_CDC_COMM`. -/
  ifCdcComm : BitVec 8
  /-- `IF_CDC_DATA`. -/
  ifCdcData : BitVec 8
  /-- `NUM_CONFIG` (log 36). -/
  numConfig : Nat
  /-- `BC_WIDTH`; the state's byte counts have 10 bits (log 36). -/
  bcWidth : Nat
  /-- `ADDR_WIDTH`; the state's addresses have 32 bits (log 36). -/
  addrWidth : Nat
  /-- `USB_ADDR_WIDTH`; the state's device address has 7 bits (log 36). -/
  usbAddrWidth : Nat
  /-- `FRAME_WIDTH`; the state's frame number has 11 bits (log 36). -/
  frameWidth : Nat
  /-- `INTEN_DEFAULT`. -/
  intenDefault : BitVec 8
  /-- `RESUME_RETRY_WINDOW`, read by no rule: the debounce verdict is a draw (R374, D44). -/
  resumeRetryWindow : Nat
  /-- `SOF_INDICATOR`, whether an indicator is driven, read by no rule (R376, D49). -/
  sofIndicator : Bool
  /-- `EP0_MPS`, one of 8, 16, 32, 64. -/
  ep0Mps : Nat
  /-- `BULK_MPS`. -/
  bulkMps : Nat
  /-- `INT_MPS`, at least 10. -/
  intMps : Nat
  /-- `TOKQ_DEPTH`. -/
  tokqDepth : Nat
  /-- `SELF_POWERED`. -/
  selfPowered : Bool
  /-- `REMOTE_WAKEUP_CAPABLE`. -/
  remoteWakeupCapable : Bool
  /-- `DEVICE_DESC` (R203). -/
  deviceDesc : List Byte
  /-- `CONFIG_DESC` (R202). -/
  configDesc : List Byte
  /-- `LANGID_DESC` (R209). -/
  langidDesc : List Byte
  /-- `STRINGS[1]`, UTF-8 (R201). `STRINGS` has no address here, where R200 gives it an OPEN one: the model's
  choice (log 41). -/
  manufacturer : List Byte
  /-- `STRINGS[2]`, UTF-8 (R201). -/
  product : List Byte
  /-- `SERIAL_STRING`, served at index 3, ASCII (R200, R207). -/
  serial : List Byte
  /-- `STRINGS[4 …]`, UTF-8 (R201). -/
  ifNames : List (List Byte)
  /-- `VENDOR_HOOK`, if one is installed (R417): a function of the packet and `dev` (R410; log 19). -/
  vendorHook : Option (List HookRow)
  /-- `SOF_HOOK`, if one is installed at bring-up (R51): a function of the frame (R376; log 20). -/
  sofHook : Option (List SofRow)
  /-- `BACKEND_LC0` (R53). -/
  backendLc0 : LineCoding
  /-- `BACKEND_APPLY`, the identity where the table has no row (R6, R413; log 20). -/
  backendApply : List ApplyRow
  /-- `BUF(e,d,k)`: the buffers of endpoint e are at index e (R81). -/
  buf : List (DirPair (HalfPair Addr))
  /-- `SCRATCH_ADDR` (R81). -/
  scratchAddr : Addr
  /-- `LC_ADDR` (R81). -/
  lcAddr : Addr
  /-- `DEV_DESC_ADDR` (R81). -/
  devDescAddr : Addr
  /-- `CFG_DESC_ADDR` (R81). -/
  cfgDescAddr : Addr
  /-- `LANGID_ADDR` (R81). -/
  langidAddr : Addr
  /-- Further ROM ranges, that a client's constant buffer may lie in (R81, R494(a); log 14). -/
  rom : List Region
  deriving DecidableEq, Repr, Inhabited

/-- Byte `i` of the `any(n)` a step draws, numbered by the draw counter (R10; log 10). No body: every
value is admitted. -/
opaque Config.freeByte : Nat → Byte

/-- The error bits `E` the SIE draws for an overlong packet (R162, R163; log 10). No body. A zero value
is read as 1, because the draw is non-zero (R38). -/
opaque Config.freeErr : Nat → Byte

/-- The debounce verdict of a RESUME the dispatcher services with no line to give it (R374; log 11). -/
opaque Config.freeGenuine : Nat → Bool

/-- The example `DEVICE_DESC` of 95_test_vectors.md section 1. -/
def exampleDeviceDesc : List Byte :=
  [0x12, 0x01, 0x00, 0x02, 0xEF, 0x02, 0x01, 0x40, 0x34,
   0x12, 0x78, 0x56, 0x00, 0x01, 0x01, 0x02, 0x03, 0x01]

/-- The example configuration header and the vendor interface (offsets 0 to 31). -/
def exampleConfigVendor : List Byte :=
  [0x09, 0x02, 0x62, 0x00, 0x03, 0x01, 0x00, 0xA0, 0x32] ++
  [0x09, 0x04, 0x00, 0x00, 0x02, 0xFF, 0x00, 0x00, 0x04] ++
  [0x07, 0x05, 0x01, 0x02, 0x40, 0x00, 0x00] ++
  [0x07, 0x05, 0x82, 0x02, 0x40, 0x00, 0x00]

/-- The example IAD and CDC communication interface (offsets 32 to 74). -/
def exampleConfigComm : List Byte :=
  [0x08, 0x0B, 0x01, 0x02, 0x02, 0x02, 0x01, 0x00] ++
  [0x09, 0x04, 0x01, 0x00, 0x01, 0x02, 0x02, 0x01, 0x00] ++
  [0x05, 0x24, 0x00, 0x10, 0x01] ++
  [0x05, 0x24, 0x01, 0x00, 0x02] ++
  [0x04, 0x24, 0x02, 0x02] ++
  [0x05, 0x24, 0x06, 0x01, 0x02] ++
  [0x07, 0x05, 0x83, 0x03, 0x10, 0x00, 0x10]

/-- The example CDC data interface (offsets 75 to 97). -/
def exampleConfigData : List Byte :=
  [0x09, 0x04, 0x02, 0x00, 0x02, 0x0A, 0x00, 0x00, 0x00] ++
  [0x07, 0x05, 0x04, 0x02, 0x40, 0x00, 0x00] ++
  [0x07, 0x05, 0x85, 0x02, 0x40, 0x00, 0x00]

/-- "0123456789ABCDEF" in ASCII. -/
def exampleHex16 : List Byte :=
  [0x30, 0x31, 0x32, 0x33, 0x34, 0x35, 0x36, 0x37,
   0x38, 0x39, 0x41, 0x42, 0x43, 0x44, 0x45, 0x46]

/-- The example placement of `BUF(e,d,k)` for e ≥ 1: `0x20004200 + ((e-1)*4 + d*2 + k)*0x40`. -/
def exampleBuf (e : Nat) : DirPair (HalfPair Addr) :=
  let b : Nat := 0x20004200 + (e - 1) * 4 * 0x40
  ⟨⟨BitVec.ofNat 32 b, BitVec.ofNat 32 (b + 0x40)⟩,
   ⟨BitVec.ofNat 32 (b + 0x80), BitVec.ofNat 32 (b + 0xC0)⟩⟩

/-- The default of `EP_MAP` (R6, D2). -/
def defaultMap : List EpEntry :=
  [⟨.control, .both, .ep0Mps, none⟩,
   ⟨.bulk, .only .rx, .bulkMps, some 0⟩,
   ⟨.bulk, .only .tx, .bulkMps, some 0⟩,
   ⟨.interrupt, .only .tx, .intMps, some 1⟩,
   ⟨.bulk, .only .rx, .bulkMps, some 2⟩,
   ⟨.bulk, .only .tx, .bulkMps, some 2⟩]

/-- The parameter values R6 adopts, and for the OPEN ones the example configuration of
95_test_vectors.md section 1 (DESIGN CHOICE, unsafe for statements about the reset state alone; log 3). -/
def Params.example : Params where
  numEp := 6
  epMap := defaultMap
  numIf := 3
  ifVendor := 0
  ifCdcComm := 1
  ifCdcData := 2
  numConfig := 1
  bcWidth := 10
  addrWidth := 32
  usbAddrWidth := 7
  frameWidth := 11
  intenDefault := 0x9F
  resumeRetryWindow := 0
  sofIndicator := false
  ep0Mps := 64
  bulkMps := 64
  intMps := 16
  tokqDepth := 4
  selfPowered := false
  remoteWakeupCapable := true
  deviceDesc := exampleDeviceDesc
  configDesc := exampleConfigVendor ++ exampleConfigComm ++ exampleConfigData
  langidDesc := [0x04, 0x03, 0x09, 0x04]
  manufacturer := [0x41, 0x63, 0x6D, 0x65]
  product := [0x55, 0x53, 0x42, 0x44, 0x4D, 0x20, 0x43, 0x44, 0x43]
  serial := exampleHex16 ++ exampleHex16 ++ [0x30, 0x31, 0x32, 0x33, 0x34, 0x35, 0x36, 0x37]
  ifNames := [[0x56, 0x65, 0x6E, 0x64, 0x6F, 0x72, 0x20, 0x42, 0x75, 0x6C, 0x6B]]
  vendorHook := none
  sofHook := none
  backendLc0 := ⟨9600, 0, 0, 8⟩
  backendApply := []
  buf := [⟨⟨0x20004000, 0x20004040⟩, ⟨0x20004080, 0x200040C0⟩⟩,
          exampleBuf 1, exampleBuf 2, exampleBuf 3, exampleBuf 4, exampleBuf 5]
  scratchAddr := 0x20004100
  lcAddr := 0x20004140
  devDescAddr := 0x00008000
  cfgDescAddr := 0x00008020
  langidAddr := 0x00008090
  rom := []

end Sys2Proof
end

