-- ==== Sys2Proof/Syntax.lean ====
section
/-! DEFINITION. The operations of the block, one constructor per row of spec/opcode_table.json, with
their operands (R110, R113, R116, R120, R133, R137, R138, R139). -/

namespace Sys2Proof

/-- The operations: 28 rows of format SETUP, 6 of COMPLETION, 7 of EVENT and 9 of CMD. A SETUP row
whose bmRequestType and bRequest are fixed carries wValue, wIndex and wLength; a GET_DESCRIPTOR row
carries the two bytes of wValue apart; a fallback row carries all of the packet. -/
inductive Instr where
  -- standard requests (R116)
  | getStatusDevice (wValue wIndex wLength : BitVec 16)
  | getStatusInterface (wValue wIndex wLength : BitVec 16)
  | getStatusEndpoint (wValue wIndex wLength : BitVec 16)
  | clearFeatureDevice (wValue wIndex wLength : BitVec 16)
  | clearFeatureInterface (wValue wIndex wLength : BitVec 16)
  | clearFeatureEndpoint (wValue wIndex wLength : BitVec 16)
  | setFeatureDevice (wValue wIndex wLength : BitVec 16)
  | setFeatureInterface (wValue wIndex wLength : BitVec 16)
  | setFeatureEndpoint (wValue wIndex wLength : BitVec 16)
  | setAddress (wValue wIndex wLength : BitVec 16)
  | getDescriptorDevice (descIndex : BitVec 8) (wIndex wLength : BitVec 16)
  | getDescriptorConfiguration (descIndex : BitVec 8) (wIndex wLength : BitVec 16)
  | getDescriptorString (descIndex : BitVec 8) (wIndex wLength : BitVec 16)
  | getDescriptorOther (descType descIndex : BitVec 8) (wIndex wLength : BitVec 16)
  | setDescriptor (wValue wIndex wLength : BitVec 16)
  | getConfiguration (wValue wIndex wLength : BitVec 16)
  | setConfiguration (wValue wIndex wLength : BitVec 16)
  | getInterface (wValue wIndex wLength : BitVec 16)
  | setInterface (wValue wIndex wLength : BitVec 16)
  | synchFrame (wValue wIndex wLength : BitVec 16)
  | stdUnmatched (bmRequestType bRequest : BitVec 8) (wValue wIndex wLength : BitVec 16)
  -- CDC-ACM class requests and the fallback rows (R120, R137)
  | cdcSetLineCoding (wValue wIndex wLength : BitVec 16)
  | cdcGetLineCoding (wValue wIndex wLength : BitVec 16)
  | cdcSetControlLineState (wValue wIndex wLength : BitVec 16)
  | cdcSendBreak (wValue wIndex wLength : BitVec 16)
  | classUnmatched (bmRequestType bRequest : BitVec 8) (wValue wIndex wLength : BitVec 16)
  | vendorRequest (bmRequestType bRequest : BitVec 8) (wValue wIndex wLength : BitVec 16)
  | reservedType (bmRequestType bRequest : BitVec 8) (wValue wIndex wLength : BitVec 16)
  -- token completions (R138)
  | tokSetupEp0 (odd : Bool)
  | tokOutEp0 (odd : Bool)
  | tokInEp0 (odd : Bool)
  | tokOutEpn (ep : BitVec 4) (odd : Bool)
  | tokInEpn (ep : BitVec 4) (odd : Bool)
  | tokSetupEpn (ep : BitVec 4) (odd : Bool)
  -- bus events (R139); `genuine` is the debounce verdict of R374
  | evUsbrst
  | evError
  | evSoftok
  | evTokdne
  | evSleep
  | evResume (genuine : Bool)
  | evStall
  -- client commands (R133)
  | startTx (e : BitVec 8) (len : BitVec 16) (buf : BitVec 32)
  | startRx (e : BitVec 8) (len : BitVec 16) (buf : BitVec 32)
  | stall (e : BitVec 8)
  | clearStall (e : BitVec 8)
  | setCallback (e : BitVec 8) (id : Nat)
  | notify (state : BitVec 16)
  | sendData (buf : BitVec 32) (len : BitVec 16)
  | receiveData (buf : BitVec 32) (maxLen : BitVec 16)
  | isConfigured
  deriving DecidableEq, Repr

end Sys2Proof
end

