-- ==== Sys2Proof/WellFormed.lean ====
section
/-! DEFINITION. Which terms of `Instr` stand for a word of their row: the fallback rows exclude the
keys a more specific row takes (R114), and an operand fits the field that carries it. -/

namespace Sys2Proof

/-- The exact (bmRequestType, bRequest) pairs of the standard rows (R116). -/
def standardKeys : List (BitVec 8 × BitVec 8) :=
  [(0x80, 0x00), (0x81, 0x00), (0x82, 0x00), (0x00, 0x01), (0x01, 0x01), (0x02, 0x01),
   (0x00, 0x03), (0x01, 0x03), (0x02, 0x03)] ++
  [(0x00, 0x05), (0x80, 0x06), (0x00, 0x07), (0x80, 0x08), (0x00, 0x09), (0x81, 0x0A),
   (0x01, 0x0B), (0x82, 0x0C)]

/-- The exact (bmRequestType, bRequest) pairs of the CDC rows (R120). -/
def cdcKeys : List (BitVec 8 × BitVec 8) :=
  [(0x21, 0x20), (0xA1, 0x21), (0x21, 0x22), (0x21, 0x23)]

/-- Bits 6:5 of bmRequestType: 0 standard, 1 class, 2 vendor, 3 reserved (R112). -/
def typeBits (bm : BitVec 8) : BitVec 2 := bm.extractLsb' 5 2

/-- The well-formed terms. -/
def Instr.wf : Instr → Bool
  | .getDescriptorOther t _ _ _ => t != 0x01 && t != 0x02 && t != 0x03
  | .stdUnmatched bm r _ _ _ => typeBits bm == 0 && !standardKeys.contains (bm, r)
  | .classUnmatched bm r _ _ _ => typeBits bm == 1 && !cdcKeys.contains (bm, r)
  | .vendorRequest bm _ _ _ _ => typeBits bm == 2
  | .reservedType bm _ _ _ _ => typeBits bm == 3
  | .tokOutEpn ep _ => ep != 0
  | .tokInEpn ep _ => ep != 0
  | .tokSetupEpn ep _ => ep != 0
  | .setCallback _ id => decide (id < 2 ^ 32)
  | .getStatusDevice _ _ _ | .getStatusInterface _ _ _ | .getStatusEndpoint _ _ _
  | .clearFeatureDevice _ _ _ | .clearFeatureInterface _ _ _ | .clearFeatureEndpoint _ _ _
  | .setFeatureDevice _ _ _ | .setFeatureInterface _ _ _ | .setFeatureEndpoint _ _ _
  | .setAddress _ _ _ | .getDescriptorDevice _ _ _ | .getDescriptorConfiguration _ _ _
  | .getDescriptorString _ _ _ | .setDescriptor _ _ _ | .getConfiguration _ _ _
  | .setConfiguration _ _ _ | .getInterface _ _ _ | .setInterface _ _ _ | .synchFrame _ _ _
  | .cdcSetLineCoding _ _ _ | .cdcGetLineCoding _ _ _ | .cdcSetControlLineState _ _ _
  | .cdcSendBreak _ _ _ | .tokSetupEp0 _ | .tokOutEp0 _ | .tokInEp0 _
  | .evUsbrst | .evError | .evSoftok | .evTokdne | .evSleep | .evResume _ | .evStall
  | .startTx _ _ _ | .startRx _ _ _ | .stall _ | .clearStall _ | .notify _
  | .sendData _ _ | .receiveData _ _ | .isConfigured => true

end Sys2Proof
end

