-- ==== Sys2Proof/Decode.lean ====
section
/-! DEFINITION. The decoder of the four formats (R110-R114, R116, R120, R127, R129, R133, R137-R139), the
encoder, the opcode table as data, and the word form the table numbers its bits by. -/

namespace Sys2Proof

/-- The four formats of R110. -/
inductive Format where
  | setup | completion | event | cmd
  deriving DecidableEq, Repr, Inhabited

/-- Why bytes are no operation of a format. -/
inductive DecodeError where
  /-- A setup packet is exactly 8 bytes (R111). -/
  | setupLength
  /-- No COMPLETION row matches the word (R138). -/
  | completionWord
  /-- No EVENT row matches the word (R139). -/
  | eventWord
  /-- No CMD row has the code, or its operand bytes are not of the command's length (R133; log 4). -/
  | commandWord
  deriving DecidableEq, Repr, Inhabited

/-! ## Setup packets -/

/-- The setup packet in 8 bytes, b0 first (R111). -/
def Setup.ofBytes (b0 b1 b2 b3 b4 b5 b6 b7 : Byte) : Setup :=
  ⟨b0, b1, le16 b2 b3, le16 b4 b5, le16 b6 b7⟩

/-- The 8 bytes of a setup packet, b0 first (R111). -/
def Setup.bytes (p : Setup) : List Byte :=
  [p.bmRequestType, p.bRequest, lo8 p.wValue, hi8 p.wValue,
   lo8 p.wIndex, hi8 p.wIndex, lo8 p.wLength, hi8 p.wLength]

/-- The setup packet a list of bytes holds, if there are exactly 8 (R111). -/
def Setup.ofList? : List Byte → Option Setup
  | [b0, b1, b2, b3, b4, b5, b6, b7] => some (Setup.ofBytes b0 b1 b2 b3 b4 b5 b6 b7)
  | _ => none

/-- The request key of R114: setup bytes 0 to 3 as a little-endian word. -/
def Setup.key (p : Setup) : BitVec 32 := p.wValue ++ p.bRequest ++ p.bmRequestType

/-- GET_DESCRIPTOR to the device, by descriptor type (R116, R117). -/
def decodeGetDescriptor (p : Setup) : Instr :=
  if hi8 p.wValue = 0x01 then .getDescriptorDevice (lo8 p.wValue) p.wIndex p.wLength
  else if hi8 p.wValue = 0x02 then .getDescriptorConfiguration (lo8 p.wValue) p.wIndex p.wLength
  else if hi8 p.wValue = 0x03 then .getDescriptorString (lo8 p.wValue) p.wIndex p.wLength
  else .getDescriptorOther (hi8 p.wValue) (lo8 p.wValue) p.wIndex p.wLength

/-- A standard request: the row whose bmRequestType and bRequest are the packet's, else STD_UNMATCHED (R116). -/
def decodeStandard (p : Setup) : Instr :=
  if p.bmRequestType = 0x80 ∧ p.bRequest = 0x00 then .getStatusDevice p.wValue p.wIndex p.wLength
  else if p.bmRequestType = 0x81 ∧ p.bRequest = 0x00 then .getStatusInterface p.wValue p.wIndex p.wLength
  else if p.bmRequestType = 0x82 ∧ p.bRequest = 0x00 then .getStatusEndpoint p.wValue p.wIndex p.wLength
  else if p.bmRequestType = 0x00 ∧ p.bRequest = 0x01 then .clearFeatureDevice p.wValue p.wIndex p.wLength
  else if p.bmRequestType = 0x01 ∧ p.bRequest = 0x01 then .clearFeatureInterface p.wValue p.wIndex p.wLength
  else if p.bmRequestType = 0x02 ∧ p.bRequest = 0x01 then .clearFeatureEndpoint p.wValue p.wIndex p.wLength
  else if p.bmRequestType = 0x00 ∧ p.bRequest = 0x03 then .setFeatureDevice p.wValue p.wIndex p.wLength
  else if p.bmRequestType = 0x01 ∧ p.bRequest = 0x03 then .setFeatureInterface p.wValue p.wIndex p.wLength
  else if p.bmRequestType = 0x02 ∧ p.bRequest = 0x03 then .setFeatureEndpoint p.wValue p.wIndex p.wLength
  else if p.bmRequestType = 0x00 ∧ p.bRequest = 0x05 then .setAddress p.wValue p.wIndex p.wLength
  else if p.bmRequestType = 0x80 ∧ p.bRequest = 0x06 then decodeGetDescriptor p
  else if p.bmRequestType = 0x00 ∧ p.bRequest = 0x07 then .setDescriptor p.wValue p.wIndex p.wLength
  else if p.bmRequestType = 0x80 ∧ p.bRequest = 0x08 then .getConfiguration p.wValue p.wIndex p.wLength
  else if p.bmRequestType = 0x00 ∧ p.bRequest = 0x09 then .setConfiguration p.wValue p.wIndex p.wLength
  else if p.bmRequestType = 0x81 ∧ p.bRequest = 0x0A then .getInterface p.wValue p.wIndex p.wLength
  else if p.bmRequestType = 0x01 ∧ p.bRequest = 0x0B then .setInterface p.wValue p.wIndex p.wLength
  else if p.bmRequestType = 0x82 ∧ p.bRequest = 0x0C then .synchFrame p.wValue p.wIndex p.wLength
  else .stdUnmatched p.bmRequestType p.bRequest p.wValue p.wIndex p.wLength

/-- A class request: a CDC row, else CLASS_UNMATCHED (R120, R137). -/
def decodeClass (p : Setup) : Instr :=
  if p.bmRequestType = 0x21 ∧ p.bRequest = 0x20 then .cdcSetLineCoding p.wValue p.wIndex p.wLength
  else if p.bmRequestType = 0xA1 ∧ p.bRequest = 0x21 then .cdcGetLineCoding p.wValue p.wIndex p.wLength
  else if p.bmRequestType = 0x21 ∧ p.bRequest = 0x22 then .cdcSetControlLineState p.wValue p.wIndex p.wLength
  else if p.bmRequestType = 0x21 ∧ p.bRequest = 0x23 then .cdcSendBreak p.wValue p.wIndex p.wLength
  else .classUnmatched p.bmRequestType p.bRequest p.wValue p.wIndex p.wLength

/-- The request a setup packet names: the type bits select the group (R137), the most specific row of
the group wins (R114). Total: the fallback rows take every other packet (R130(a)). -/
def decodeSetup (p : Setup) : Instr :=
  if typeBits p.bmRequestType = 0 then decodeStandard p
  else if typeBits p.bmRequestType = 1 then decodeClass p
  else if typeBits p.bmRequestType = 2 then
    .vendorRequest p.bmRequestType p.bRequest p.wValue p.wIndex p.wLength
  else .reservedType p.bmRequestType p.bRequest p.wValue p.wIndex p.wLength

/-! ## Token completions -/

/-- Token PIDs (R128). -/
def pidOut : BitVec 4 := 0x1
/-- Token PIDs (R128). -/
def pidIn : BitVec 4 := 0x9
/-- Token PIDs (R128). -/
def pidSetup : BitVec 4 := 0xD

/-- The direction's bit in a completion word: RX 0, TX 1 (R127). -/
def Dir.bit : Dir → Bool
  | .rx => false
  | .tx => true

/-- The completion word `cw = pid << 8 | ep << 4 | dir << 3 | odd << 2` (R127). -/
def completionWord (pid ep : BitVec 4) (d : Dir) (odd : Bool) : BitVec 12 :=
  pid ++ ep ++ BitVec.ofBool d.bit ++ BitVec.ofBool odd ++ 0#2

/-- The completion row of a word: PID, direction and endpoint choose it, EP0 rows first (R127, R138).
Bits 1:0 lie outside every row's mask and are not read. -/
def decodeCompletion (cw : BitVec 12) : Option Instr :=
  let pid := cw.extractLsb' 8 4
  let ep := cw.extractLsb' 4 4
  let tx := cw.getLsbD 3
  let odd := cw.getLsbD 2
  if pid = pidSetup ∧ tx = false then
    some (if ep = 0 then .tokSetupEp0 odd else .tokSetupEpn ep odd)
  else if pid = pidOut ∧ tx = false then
    some (if ep = 0 then .tokOutEp0 odd else .tokOutEpn ep odd)
  else if pid = pidIn ∧ tx = true then
    some (if ep = 0 then .tokInEp0 odd else .tokInEpn ep odd)
  else none

/-! ## Bus events -/

/-- The event to service of the pending, enabled events `p`, in the fixed priority USBRST, TOKDNE,
RESUME, STALL, SOFTOK, SLEEP, ERROR (R371); bit positions of R129. -/
def decodeEvent (p : BitVec 8) (genuine : Bool) : Option Instr :=
  if p.getLsbD 0 then some .evUsbrst
  else if p.getLsbD 3 then some .evTokdne
  else if p.getLsbD 5 then some (.evResume genuine)
  else if p.getLsbD 7 then some .evStall
  else if p.getLsbD 2 then some .evSoftok
  else if p.getLsbD 4 then some .evSleep
  else if p.getLsbD 1 then some .evError
  else none

/-! ## Client commands -/

/-- How many operand bytes follow a command code (R133; the byte form is a DESIGN CHOICE, log 4). -/
def operandBytes (code : Byte) : Nat :=
  if code = 0x01 ∨ code = 0x02 then 7
  else if code = 0x03 ∨ code = 0x04 then 1
  else if code = 0x05 then 5
  else if code = 0x06 then 2
  else if code = 0x07 ∨ code = 0x08 then 6
  else 0

/-- A client command from its code byte and operand bytes (R133; log 4): operands in R133's order, each
little-endian: e in one byte, len, maxLen and state in two, buf and id in four. -/
def decodeCmd : List Byte → Option Instr
  | [c] => if c = 0x09 then some .isConfigured else none
  | [c, e] =>
    if c = 0x03 then some (.stall e) else if c = 0x04 then some (.clearStall e) else none
  | [c, s0, s1] => if c = 0x06 then some (.notify (le16 s0 s1)) else none
  | [c, e, i0, i1, i2, i3] =>
    if c = 0x05 then some (.setCallback e (le32 i0 i1 i2 i3).toNat) else none
  | [c, a0, a1, a2, a3, l0, l1] =>
    if c = 0x07 then some (.sendData (le32 a0 a1 a2 a3) (le16 l0 l1))
    else if c = 0x08 then some (.receiveData (le32 a0 a1 a2 a3) (le16 l0 l1))
    else none
  | [c, e, l0, l1, a0, a1, a2, a3] =>
    if c = 0x01 then some (.startTx e (le16 l0 l1) (le32 a0 a1 a2 a3))
    else if c = 0x02 then some (.startRx e (le16 l0 l1) (le32 a0 a1 a2 a3))
    else none
  | _ => none

/-! ## The decoder of bytes -/

/-- An EVENT word: the `istat` bits, then the debounce operand of RESUME (0 genuine, 1 spurious; log 5). -/
def decodeEventBytes : List Byte → Option Instr
  | [b, n] =>
    if n = 0 then decodeEvent b true
    else if n = 1 ∧ decodeEvent b false = some (.evResume false) then some (.evResume false)
    else none
  | _ => none

/-- A COMPLETION word (R127). Its form as two bytes, the low byte first, bits 15:12 being 0, is the model's: the spec
gives the word 12 bits and no bytes (DESIGN CHOICE, safe; log 40). -/
def decodeCompletionBytes : List Byte → Option Instr
  | [b0, b1] => if b1.extractLsb' 4 4 = 0 then decodeCompletion (b1.extractLsb' 0 4 ++ b0) else none
  | _ => none

/-- The operation that bytes name in a format, or why they name none. Total on any bytes. -/
def decode (f : Format) (bs : List Byte) : Except DecodeError Instr :=
  match f with
  | .setup => match Setup.ofList? bs with
    | some p => .ok (decodeSetup p)
    | none => .error .setupLength
  | .completion => match decodeCompletionBytes bs with
    | some i => .ok i
    | none => .error .completionWord
  | .event => match decodeEventBytes bs with
    | some i => .ok i
    | none => .error .eventWord
  | .cmd => match decodeCmd bs with
    | some i => .ok i
    | none => .error .commandWord

/-! ## The opcode table and the encoder -/

/-- A row of spec/opcode_table.json. -/
structure OpRow where
  mnemonic : String
  format   : Format
  pattern  : BitVec 32
  mask     : BitVec 32
  deriving DecidableEq, Repr

/-- The standard request rows (R116). -/
def standardRows : List OpRow :=
  [⟨"GET_STATUS_DEVICE", .setup, 0x00000080, 0x0000FFFF⟩,
   ⟨"GET_STATUS_INTERFACE", .setup, 0x00000081, 0x0000FFFF⟩,
   ⟨"GET_STATUS_ENDPOINT", .setup, 0x00000082, 0x0000FFFF⟩,
   ⟨"CLEAR_FEATURE_DEVICE", .setup, 0x00000100, 0x0000FFFF⟩,
   ⟨"CLEAR_FEATURE_INTERFACE", .setup, 0x00000101, 0x0000FFFF⟩,
   ⟨"CLEAR_FEATURE_ENDPOINT", .setup, 0x00000102, 0x0000FFFF⟩,
   ⟨"SET_FEATURE_DEVICE", .setup, 0x00000300, 0x0000FFFF⟩,
   ⟨"SET_FEATURE_INTERFACE", .setup, 0x00000301, 0x0000FFFF⟩,
   ⟨"SET_FEATURE_ENDPOINT", .setup, 0x00000302, 0x0000FFFF⟩,
   ⟨"SET_ADDRESS", .setup, 0x00000500, 0x0000FFFF⟩,
   ⟨"GET_DESCRIPTOR_DEVICE", .setup, 0x01000680, 0xFF00FFFF⟩,
   ⟨"GET_DESCRIPTOR_CONFIGURATION", .setup, 0x02000680, 0xFF00FFFF⟩,
   ⟨"GET_DESCRIPTOR_STRING", .setup, 0x03000680, 0xFF00FFFF⟩,
   ⟨"GET_DESCRIPTOR_OTHER", .setup, 0x00000680, 0x0000FFFF⟩,
   ⟨"SET_DESCRIPTOR", .setup, 0x00000700, 0x0000FFFF⟩,
   ⟨"GET_CONFIGURATION", .setup, 0x00000880, 0x0000FFFF⟩,
   ⟨"SET_CONFIGURATION", .setup, 0x00000900, 0x0000FFFF⟩,
   ⟨"GET_INTERFACE", .setup, 0x00000A81, 0x0000FFFF⟩,
   ⟨"SET_INTERFACE", .setup, 0x00000B01, 0x0000FFFF⟩,
   ⟨"SYNCH_FRAME", .setup, 0x00000C82, 0x0000FFFF⟩,
   ⟨"STD_UNMATCHED", .setup, 0x00000000, 0x00000060⟩]

/-- The CDC rows and the type fallbacks (R120, R137). -/
def classRows : List OpRow :=
  [⟨"CDC_SET_LINE_CODING", .setup, 0x00002021, 0x0000FFFF⟩,
   ⟨"CDC_GET_LINE_CODING", .setup, 0x000021A1, 0x0000FFFF⟩,
   ⟨"CDC_SET_CONTROL_LINE_STATE", .setup, 0x00002221, 0x0000FFFF⟩,
   ⟨"CDC_SEND_BREAK", .setup, 0x00002321, 0x0000FFFF⟩,
   ⟨"CLASS_UNMATCHED", .setup, 0x00000020, 0x00000060⟩,
   ⟨"VENDOR_REQUEST", .setup, 0x00000040, 0x00000060⟩,
   ⟨"RESERVED_TYPE", .setup, 0x00000060, 0x00000060⟩]

/-- The completion rows (R138). -/
def completionRows : List OpRow :=
  [⟨"TOK_SETUP_EP0", .completion, 0xD00, 0xFF8⟩,
   ⟨"TOK_OUT_EP0", .completion, 0x100, 0xFF8⟩,
   ⟨"TOK_IN_EP0", .completion, 0x908, 0xFF8⟩,
   ⟨"TOK_OUT_EPN", .completion, 0x100, 0xF08⟩,
   ⟨"TOK_IN_EPN", .completion, 0x908, 0xF08⟩,
   ⟨"TOK_SETUP_EPN", .completion, 0xD00, 0xF08⟩]

/-- The event rows (R139). -/
def eventRows : List OpRow :=
  [⟨"EV_USBRST", .event, 0x01, 0x01⟩,
   ⟨"EV_ERROR", .event, 0x02, 0x02⟩,
   ⟨"EV_SOFTOK", .event, 0x04, 0x04⟩,
   ⟨"EV_TOKDNE", .event, 0x08, 0x08⟩,
   ⟨"EV_SLEEP", .event, 0x10, 0x10⟩,
   ⟨"EV_RESUME", .event, 0x20, 0x20⟩,
   ⟨"EV_STALL", .event, 0x80, 0x80⟩]

/-- The client command rows (R133, R139). -/
def commandRows : List OpRow :=
  [⟨"startTx", .cmd, 0x01, 0xFF⟩,
   ⟨"startRx", .cmd, 0x02, 0xFF⟩,
   ⟨"stall", .cmd, 0x03, 0xFF⟩,
   ⟨"clearStall", .cmd, 0x04, 0xFF⟩,
   ⟨"setCallback", .cmd, 0x05, 0xFF⟩,
   ⟨"notify", .cmd, 0x06, 0xFF⟩,
   ⟨"sendData", .cmd, 0x07, 0xFF⟩,
   ⟨"receiveData", .cmd, 0x08, 0xFF⟩,
   ⟨"isConfigured", .cmd, 0x09, 0xFF⟩]

/-- The opcode table, in the spec's order. -/
def opcodeTable : List OpRow :=
  standardRows ++ classRows ++ completionRows ++ eventRows ++ commandRows

/-- The table row an operation stands for. -/
def Instr.row : Instr → OpRow
  | .getStatusDevice _ _ _ => ⟨"GET_STATUS_DEVICE", .setup, 0x00000080, 0x0000FFFF⟩
  | .getStatusInterface _ _ _ => ⟨"GET_STATUS_INTERFACE", .setup, 0x00000081, 0x0000FFFF⟩
  | .getStatusEndpoint _ _ _ => ⟨"GET_STATUS_ENDPOINT", .setup, 0x00000082, 0x0000FFFF⟩
  | .clearFeatureDevice _ _ _ => ⟨"CLEAR_FEATURE_DEVICE", .setup, 0x00000100, 0x0000FFFF⟩
  | .clearFeatureInterface _ _ _ => ⟨"CLEAR_FEATURE_INTERFACE", .setup, 0x00000101, 0x0000FFFF⟩
  | .clearFeatureEndpoint _ _ _ => ⟨"CLEAR_FEATURE_ENDPOINT", .setup, 0x00000102, 0x0000FFFF⟩
  | .setFeatureDevice _ _ _ => ⟨"SET_FEATURE_DEVICE", .setup, 0x00000300, 0x0000FFFF⟩
  | .setFeatureInterface _ _ _ => ⟨"SET_FEATURE_INTERFACE", .setup, 0x00000301, 0x0000FFFF⟩
  | .setFeatureEndpoint _ _ _ => ⟨"SET_FEATURE_ENDPOINT", .setup, 0x00000302, 0x0000FFFF⟩
  | .setAddress _ _ _ => ⟨"SET_ADDRESS", .setup, 0x00000500, 0x0000FFFF⟩
  | .getDescriptorDevice _ _ _ => ⟨"GET_DESCRIPTOR_DEVICE", .setup, 0x01000680, 0xFF00FFFF⟩
  | .getDescriptorConfiguration _ _ _ => ⟨"GET_DESCRIPTOR_CONFIGURATION", .setup, 0x02000680, 0xFF00FFFF⟩
  | .getDescriptorString _ _ _ => ⟨"GET_DESCRIPTOR_STRING", .setup, 0x03000680, 0xFF00FFFF⟩
  | .getDescriptorOther _ _ _ _ => ⟨"GET_DESCRIPTOR_OTHER", .setup, 0x00000680, 0x0000FFFF⟩
  | .setDescriptor _ _ _ => ⟨"SET_DESCRIPTOR", .setup, 0x00000700, 0x0000FFFF⟩
  | .getConfiguration _ _ _ => ⟨"GET_CONFIGURATION", .setup, 0x00000880, 0x0000FFFF⟩
  | .setConfiguration _ _ _ => ⟨"SET_CONFIGURATION", .setup, 0x00000900, 0x0000FFFF⟩
  | .getInterface _ _ _ => ⟨"GET_INTERFACE", .setup, 0x00000A81, 0x0000FFFF⟩
  | .setInterface _ _ _ => ⟨"SET_INTERFACE", .setup, 0x00000B01, 0x0000FFFF⟩
  | .synchFrame _ _ _ => ⟨"SYNCH_FRAME", .setup, 0x00000C82, 0x0000FFFF⟩
  | .stdUnmatched _ _ _ _ _ => ⟨"STD_UNMATCHED", .setup, 0x00000000, 0x00000060⟩
  | .cdcSetLineCoding _ _ _ => ⟨"CDC_SET_LINE_CODING", .setup, 0x00002021, 0x0000FFFF⟩
  | .cdcGetLineCoding _ _ _ => ⟨"CDC_GET_LINE_CODING", .setup, 0x000021A1, 0x0000FFFF⟩
  | .cdcSetControlLineState _ _ _ => ⟨"CDC_SET_CONTROL_LINE_STATE", .setup, 0x00002221, 0x0000FFFF⟩
  | .cdcSendBreak _ _ _ => ⟨"CDC_SEND_BREAK", .setup, 0x00002321, 0x0000FFFF⟩
  | .classUnmatched _ _ _ _ _ => ⟨"CLASS_UNMATCHED", .setup, 0x00000020, 0x00000060⟩
  | .vendorRequest _ _ _ _ _ => ⟨"VENDOR_REQUEST", .setup, 0x00000040, 0x00000060⟩
  | .reservedType _ _ _ _ _ => ⟨"RESERVED_TYPE", .setup, 0x00000060, 0x00000060⟩
  | .tokSetupEp0 _ => ⟨"TOK_SETUP_EP0", .completion, 0xD00, 0xFF8⟩
  | .tokOutEp0 _ => ⟨"TOK_OUT_EP0", .completion, 0x100, 0xFF8⟩
  | .tokInEp0 _ => ⟨"TOK_IN_EP0", .completion, 0x908, 0xFF8⟩
  | .tokOutEpn _ _ => ⟨"TOK_OUT_EPN", .completion, 0x100, 0xF08⟩
  | .tokInEpn _ _ => ⟨"TOK_IN_EPN", .completion, 0x908, 0xF08⟩
  | .tokSetupEpn _ _ => ⟨"TOK_SETUP_EPN", .completion, 0xD00, 0xF08⟩
  | .evUsbrst => ⟨"EV_USBRST", .event, 0x01, 0x01⟩
  | .evError => ⟨"EV_ERROR", .event, 0x02, 0x02⟩
  | .evSoftok => ⟨"EV_SOFTOK", .event, 0x04, 0x04⟩
  | .evTokdne => ⟨"EV_TOKDNE", .event, 0x08, 0x08⟩
  | .evSleep => ⟨"EV_SLEEP", .event, 0x10, 0x10⟩
  | .evResume _ => ⟨"EV_RESUME", .event, 0x20, 0x20⟩
  | .evStall => ⟨"EV_STALL", .event, 0x80, 0x80⟩
  | .startTx _ _ _ => ⟨"startTx", .cmd, 0x01, 0xFF⟩
  | .startRx _ _ _ => ⟨"startRx", .cmd, 0x02, 0xFF⟩
  | .stall _ => ⟨"stall", .cmd, 0x03, 0xFF⟩
  | .clearStall _ => ⟨"clearStall", .cmd, 0x04, 0xFF⟩
  | .setCallback _ _ => ⟨"setCallback", .cmd, 0x05, 0xFF⟩
  | .notify _ => ⟨"notify", .cmd, 0x06, 0xFF⟩
  | .sendData _ _ => ⟨"sendData", .cmd, 0x07, 0xFF⟩
  | .receiveData _ _ => ⟨"receiveData", .cmd, 0x08, 0xFF⟩
  | .isConfigured => ⟨"isConfigured", .cmd, 0x09, 0xFF⟩

/-- The format an operation is encoded in. -/
def Instr.format (i : Instr) : Format := i.row.format

/-- The setup packet of an exact row: its two fixed bytes and the operands (R116, R120). -/
def exactPacket (bm r : Byte) (v x l : BitVec 16) : List Byte := (Setup.mk bm r v x l).bytes

/-- The GET_DESCRIPTOR packet of a descriptor type and index (R113). -/
def descriptorPacket (t idx : Byte) (x l : BitVec 16) : List Byte :=
  (Setup.mk 0x80 0x06 (le16 idx t) x l).bytes

/-- A completion word as two bytes, the low byte first. -/
def completionBytes (pid ep : BitVec 4) (d : Dir) (odd : Bool) : List Byte :=
  let cw := completionWord pid ep d odd
  [cw.extractLsb' 0 8, (cw.extractLsb' 8 4).setWidth 8]

/-- The bytes of an operation in its format: the inverse of `decode` on well-formed terms. -/
def encode : Instr → List Byte
  | .getStatusDevice v x l => exactPacket 0x80 0x00 v x l
  | .getStatusInterface v x l => exactPacket 0x81 0x00 v x l
  | .getStatusEndpoint v x l => exactPacket 0x82 0x00 v x l
  | .clearFeatureDevice v x l => exactPacket 0x00 0x01 v x l
  | .clearFeatureInterface v x l => exactPacket 0x01 0x01 v x l
  | .clearFeatureEndpoint v x l => exactPacket 0x02 0x01 v x l
  | .setFeatureDevice v x l => exactPacket 0x00 0x03 v x l
  | .setFeatureInterface v x l => exactPacket 0x01 0x03 v x l
  | .setFeatureEndpoint v x l => exactPacket 0x02 0x03 v x l
  | .setAddress v x l => exactPacket 0x00 0x05 v x l
  | .getDescriptorDevice idx x l => descriptorPacket 0x01 idx x l
  | .getDescriptorConfiguration idx x l => descriptorPacket 0x02 idx x l
  | .getDescriptorString idx x l => descriptorPacket 0x03 idx x l
  | .getDescriptorOther t idx x l => descriptorPacket t idx x l
  | .setDescriptor v x l => exactPacket 0x00 0x07 v x l
  | .getConfiguration v x l => exactPacket 0x80 0x08 v x l
  | .setConfiguration v x l => exactPacket 0x00 0x09 v x l
  | .getInterface v x l => exactPacket 0x81 0x0A v x l
  | .setInterface v x l => exactPacket 0x01 0x0B v x l
  | .synchFrame v x l => exactPacket 0x82 0x0C v x l
  | .stdUnmatched bm r v x l => exactPacket bm r v x l
  | .cdcSetLineCoding v x l => exactPacket 0x21 0x20 v x l
  | .cdcGetLineCoding v x l => exactPacket 0xA1 0x21 v x l
  | .cdcSetControlLineState v x l => exactPacket 0x21 0x22 v x l
  | .cdcSendBreak v x l => exactPacket 0x21 0x23 v x l
  | .classUnmatched bm r v x l => exactPacket bm r v x l
  | .vendorRequest bm r v x l => exactPacket bm r v x l
  | .reservedType bm r v x l => exactPacket bm r v x l
  | .tokSetupEp0 k => completionBytes pidSetup 0 .rx k
  | .tokOutEp0 k => completionBytes pidOut 0 .rx k
  | .tokInEp0 k => completionBytes pidIn 0 .tx k
  | .tokOutEpn ep k => completionBytes pidOut ep .rx k
  | .tokInEpn ep k => completionBytes pidIn ep .tx k
  | .tokSetupEpn ep k => completionBytes pidSetup ep .rx k
  | .evUsbrst => [0x01, 0]
  | .evError => [0x02, 0]
  | .evSoftok => [0x04, 0]
  | .evTokdne => [0x08, 0]
  | .evSleep => [0x10, 0]
  | .evResume genuine => [0x20, if genuine then 0 else 1]
  | .evStall => [0x80, 0]
  | .startTx e len buf => 0x01 :: e :: (bytes16 len ++ bytes32 buf)
  | .startRx e len buf => 0x02 :: e :: (bytes16 len ++ bytes32 buf)
  | .stall e => [0x03, e]
  | .clearStall e => [0x04, e]
  | .setCallback e id => 0x05 :: e :: bytes32 (BitVec.ofNat 32 id)
  | .notify st => 0x06 :: bytes16 st
  | .sendData buf len => 0x07 :: (bytes32 buf ++ bytes16 len)
  | .receiveData buf len => 0x08 :: (bytes32 buf ++ bytes16 len)
  | .isConfigured => [0x09]

/-! ## Words numbered as the opcode table numbers them -/

/-- The low `n` bytes of a number, least significant first. -/
def natBytes : Nat → Nat → List Byte
  | 0, _ => []
  | n + 1, w => BitVec.ofNat 8 w :: natBytes n (w / 256)

/-- The bytes of a table word read as a SETUP row: 8 bytes, those above the word 0. -/
def setupWordBytes (w : Nat) : List Byte := natBytes 8 w

/-- The bytes of a table word read as a CMD row: the code and as many operand bytes as it has, those
above the word 0. -/
def cmdWordBytes (w : Nat) : List Byte := natBytes (1 + operandBytes (BitVec.ofNat 8 w)) w

/-- The bytes of a table word read as a COMPLETION or an EVENT row. -/
def shortWordBytes (w : Nat) : List Byte := natBytes 2 w

/-- The format a table word is read in (log 5). The table gives 32 bits to a SETUP row, 12 bits (16 in
whole bytes) to a COMPLETION row and 8 to an EVENT or a CMD row. In 8 bits the CMD rows, whose masks
have the most bits, come before the EVENT rows (R114); what no row of the format takes is read as SETUP. -/
def tableWordFormat (nbits w : Nat) : Format :=
  if nbits ≤ 8 then
    if (decodeCmd (cmdWordBytes w)).isSome then .cmd
    else if w ∈ [0x10, 0x20, 0x80] then .event
    else .setup
  else if nbits ≤ 16 then
    if w % 4 = 0 ∧ (decodeCompletionBytes (shortWordBytes w)).isSome then .completion
    else .setup
  else .setup

/-- The bytes of a table word in the format it is read in. -/
def tableWordBytes (nbits w : Nat) : List Byte :=
  match tableWordFormat nbits w with
  | .setup => setupWordBytes w
  | .completion => shortWordBytes w
  | .event => shortWordBytes w
  | .cmd => cmdWordBytes w

/-- The operation the decoder reads from a word numbered as spec/opcode_table.json numbers it: bit 0 is
the least significant bit of the first byte, and every bit above `nbits` is 0. -/
def decodeTableWord (nbits w : Nat) : Option Instr :=
  match decode (tableWordFormat nbits (w % 2 ^ nbits)) (tableWordBytes nbits (w % 2 ^ nbits)) with
  | .ok i => some i
  | .error _ => none

end Sys2Proof
end

