-- ==== Sys2Proof/Machine/State.lean ====
section
/-! DEFINITION. The state of the machine as plain data (10_state.md), the reasons a step stops, and the
state after power-on initialisation (R480). -/

namespace Sys2Proof.Machine

/-- Reasons the machine stops with a fault. The spec's own faults F1 … F5 are not here: they are
recorded in `State.fault` and the run goes on (R444). -/
inductive Fault where
  /-- Raised by `load` and `store` when bytes at or past address 2^32 would be read or written: the
  space has 32-bit addresses (R80). Safe: no rule says what such an access does (log 17). -/
  | addressSpace
  deriving DecidableEq, Repr

/-- Reasons a step is refused. -/
inductive Refusal where
  /-- An operation that has no meaning yet, by its mnemonic. Raised by an arm of `exec`. Safe. -/
  | notModelled (mnemonic : String)
  /-- A write to a ROM address. Raised by `store`. Safe: "a model refuses it" (R83). -/
  | romWrite
  /-- A client buffer that breaks R494(a) or (b). Raised by startTx, startRx, sendData and
  receiveData. Safe: "a model refuses it" (R494; log 15). -/
  | clientBuffer
  /-- A configuration that fails a build check. Raised by `step`. Safe: no run starts (R446). -/
  | configuration
  /-- An EP0 OUT completion in phase Throttle or Complete. Raised by TOK_OUT_EP0. Safe: "a model may
  refuse it" (D69; log 21). -/
  | phaseOutsideRules
  /-- A client line whose bytes are no command word. Raised by `step`. Safe (R133; log 26). -/
  | commandWord
  /-- A line that is no line of R135: a line error with zero error bits. Raised by `step`. Safe
  (R171; log 25). -/
  | malformedLine
  deriving DecidableEq, Repr

/-- The set of fault reasons raised so far (R52). -/
structure FaultSet where
  f1 : Bool
  f2 : Bool
  f3 : Bool
  f4 : Bool
  f5 : Bool
  deriving DecidableEq, Repr

/-- `EndpointState` (R40). `false` is DATA0 in `toggle` and half 0 in `odd`. -/
structure EndpointState where
  phase     : Phase
  enabled   : Bool
  odd       : DirPair Bool
  toggle    : DirPair Bool
  ptr       : Addr
  remaining : BitVec 16
  xferred   : BitVec 16
  callback  : Option Callback
  deriving DecidableEq, Repr

/-- A buffer-descriptor slot (R42). -/
structure Slot where
  own    : Bool
  data01 : Bool
  stall  : Bool
  bc     : BitVec 10
  addr   : Addr
  pid    : BitVec 4
  deriving DecidableEq, Repr

/-- A token completion the SIE queued (R45). The endpoint number has 4 bits (R127). -/
structure Completion where
  ep  : BitVec 4
  dir : Dir
  odd : Bool
  deriving DecidableEq, Repr

/-- What the SIE answered to a host transaction (R136). -/
inductive Answer where
  | none | ack | nak | stall | error
  | data (toggle : Bool) (bytes : List Byte)
  deriving DecidableEq, Repr

/-- SIE state (R45) and its answer to the last host transaction (R136; log 13). -/
structure Sie where
  odd            : EpBank (DirPair Bool)
  tokq           : List Completion
  tokenSuspended : Bool
  answer         : Answer
  deriving DecidableEq, Repr

/-- The unhandled-SETUP hook: absent, or the CDC hook (R51, R411). -/
inductive SetupHook where
  | absent | cdc
  deriving DecidableEq, Repr

/-- The SOF hook: absent, or the parameter's (R51, R376). -/
inductive SofHook where
  | absent | installed
  deriving DecidableEq, Repr

/-- The hooks (R51). -/
structure Hooks where
  setup : SetupHook
  sof   : SofHook
  deriving DecidableEq, Repr

/-- Serial backend state (R53). -/
structure Backend where
  lc        : LineCoding
  lineState : BitVec 16
  deriving DecidableEq, Repr

/-- The client's waits and the values its calls returned (R244; log 12). -/
structure Client where
  sendWait : Bool
  recvWait : Bool
  recvRet  : BitVec 16
  confRet  : Bool
  deriving DecidableEq, Repr

/-- A stimulus line: one step of one agent (R135). -/
inductive Line where
  /-- `INIT`. -/
  | init
  /-- `H.RESET`. -/
  | hReset
  /-- `H.SETUP a e b0 …`. -/
  | hSetup (a : BitVec 7) (e : BitVec 4) (data : List Byte)
  /-- `H.OUT a e P b0 …`; `p` is false for DATA0. -/
  | hOut (a : BitVec 7) (e : BitVec 4) (p : Bool) (data : List Byte)
  /-- `H.IN a e ACK|NOACK`. -/
  | hIn (a : BitVec 7) (e : BitVec 4) (ack : Bool)
  /-- `H.SOF f`. -/
  | hSof (f : Nat)
  /-- `H.IDLE`. -/
  | hIdle
  /-- `H.RESUME`. -/
  | hResume
  /-- `H.ERROR x`, x ≠ 0. -/
  | hError (x : Byte)
  /-- `B.DISPATCH genuine=0|1`. -/
  | dispatch (genuine : Bool)
  /-- A `C.` line: the command word of R133 (log 4). -/
  | client (word : List Byte)
  /-- `BK.LINESTATE v`. -/
  | backend (v : BitVec 16)
  /-- `M.WRITE addr b0 …`. -/
  | memWrite (a : Addr) (data : List Byte)
  deriving DecidableEq, Repr

/-- The state of the machine. `mem` lists the bytes that differ from what an unlisted address reads as,
addresses rising (Machine/Ops.lean, `unlisted`, `memWf`). `cfg` is written by no step (R6; log 3);
`lines` is the rest of the run's stimulus (R135; log 1); `draws` numbers the free draws (R10; log 10);
`ownedWrite` flags a write to an owned slot other than an abort path's (R490; log 37). -/
structure State where
  cfg     : Params
  dev     : DeviceState
  ep      : EpBank EndpointState
  bdt     : EpBank (DirPair (HalfPair Slot))
  sie     : Sie
  setup   : Setup
  mem     : List (Nat × BitVec 8)
  out     : List OutEvent
  hooks   : Hooks
  fault   : FaultSet
  backend : Backend
  client  : Client
  lines   : List Line
  draws   : Nat
  ownedWrite : Bool
  deriving DecidableEq, Repr

/-- The outcome of a step or a meaning. -/
abbrev Res := Host.Outcome State Fault Refusal

/-- The device registers after INIT (R480). -/
def DeviceState.powerOn (c : Params) : DeviceState where
  conn := .attached
  config := 0
  addr := 0
  pendingAddr := 0
  selfPowered := c.selfPowered
  remoteWakeup := false
  epActive := true
  istat := 0
  inten := c.intenDefault
  errstat := 0
  frame := 0

/-- An endpoint record after INIT (R480). -/
def EndpointState.powerOn (e : EpId) : EndpointState where
  phase := .idle
  enabled := decide (e = .ep0)
  odd := ⟨false, false⟩
  toggle := ⟨false, false⟩
  ptr := 0
  remaining := 0
  xferred := 0
  callback := none

/-- A slot after INIT (R480). -/
def Slot.powerOn : Slot := ⟨false, false, false, 0, 0, 0⟩

/-- The four slots of an endpoint after INIT. -/
def Slot.allPowerOn : DirPair (HalfPair Slot) :=
  ⟨⟨Slot.powerOn, Slot.powerOn⟩, ⟨Slot.powerOn, Slot.powerOn⟩⟩

/-- The machine after INIT in a configuration (R480). RAM and `setup` are "any" there: nothing is
listed in memory and `setup` is zero (DESIGN CHOICE, unsafe; log 7, log 8). -/
def State.powerOn (c : Params) : State where
  cfg := c
  dev := DeviceState.powerOn c
  ep := EpBank.tabulate EndpointState.powerOn
  bdt := EpBank.tabulate fun _ => Slot.allPowerOn
  sie := ⟨EpBank.tabulate fun _ => ⟨false, false⟩, [], false, .none⟩
  setup := ⟨0, 0, 0, 0, 0⟩
  mem := []
  out := []
  hooks := ⟨.cdc, if c.sofHook.isSome then .installed else .absent⟩
  fault := ⟨false, false, false, false, false⟩
  backend := ⟨c.backendLc0, 0⟩
  client := ⟨false, false, 0, false⟩
  lines := []
  draws := 0
  ownedWrite := false

/-- The machine right after reset: INIT in the adopted and example configuration (R480; log 3), with no
line to run (log 1). -/
def State.reset : State := State.powerOn Params.example

end Sys2Proof.Machine
end

