-- ==== Sys2Proof/Machine/Flags.lean ====
section
/-! DEFINITION. The interrupt status and enable bits, and the computations over them (R37, R129, R166,
R175, R448). -/

namespace Sys2Proof.Machine

/-- The bit masks of `istat` and `inten` (R129). -/
def bitUsbrst : BitVec 8 := 0x01
/-- ERROR (R129). -/
def bitError : BitVec 8 := 0x02
/-- SOFTOK (R129). -/
def bitSoftok : BitVec 8 := 0x04
/-- TOKDNE (R129). -/
def bitTokdne : BitVec 8 := 0x08
/-- SLEEP (R129). -/
def bitSleep : BitVec 8 := 0x10
/-- RESUME (R129). -/
def bitResume : BitVec 8 := 0x20
/-- STALL (R129). -/
def bitStall : BitVec 8 := 0x80

/-- `dev.istat` as it reads: TOKDNE is 1 exactly when the token queue is non-empty (R45, R166). -/
def istat (s : State) : BitVec 8 :=
  (s.dev.istat &&& ~~~bitTokdne) ||| (if s.sie.tokq = [] then 0 else bitTokdne)

/-- `dev` as it reads, TOKDNE following the token queue (R34, R37, R166; log 18). -/
def devView (s : State) : DeviceState := { s.dev with istat := istat s }

/-- The pending, enabled events (R371). -/
def pending (s : State) : BitVec 8 := istat s &&& s.dev.inten

/-- The interrupt request: `(istat & inten) ≠ 0` (R175). -/
def irq (s : State) : Bool := pending s != 0

/-- The device registers with bits of `istat` set, as the SIE does (R172). -/
def raiseBits (m : BitVec 8) (d : DeviceState) : DeviceState :=
  { d with istat := d.istat ||| m }

/-- The device registers with bits of `istat` cleared by a write of 1 to them (R37, R89). -/
def clearBits (m : BitVec 8) (d : DeviceState) : DeviceState :=
  { d with istat := d.istat &&& ~~~m }

/-- The device registers with bits of `inten` set. -/
def enableBits (m : BitVec 8) (d : DeviceState) : DeviceState :=
  { d with inten := d.inten ||| m }

/-- The device registers with bits of `inten` cleared. -/
def disableBits (m : BitVec 8) (d : DeviceState) : DeviceState :=
  { d with inten := d.inten &&& ~~~m }

/-- `halted(e)` (R54). -/
def halted (s : State) (e : EpId) : Bool := (s.ep.get e).phase == .stall

end Sys2Proof.Machine
end

