-- ==== Sys2Proof/Machine/Ops.lean ====
section
/-! DEFINITION. The named operations over the state: sequencing, memory, endpoints and slots, output and
faults, the SIE's reset operations, the arming helpers, stalling, building, and the two exceptions of the
block, `raiseFault` (R443) and `raiseStall` (R277, R442), with the return from the second, `resyncEp0` (R288). -/

namespace Sys2Proof.Machine

/-! ## Sequencing -/

/-- Go on with the value of an outcome; a stop stays a stop. -/
def andThen {α β : Type} (r : Host.Outcome α Fault Refusal) (f : α → Host.Outcome β Fault Refusal) :
    Host.Outcome β Fault Refusal :=
  match r with
  | .next a => f a
  | .fault x => .fault x
  | .refused x => .refused x

/-! ## The endpoint map (R6, R7) -/

/-- Whether an endpoint number is of an endpoint of the block: below `NUM_EP` (R6). -/
def onMap (c : Params) (e : EpId) : Bool := decide (e.num < c.numEp)

/-- The endpoint of a number, if it is below `NUM_EP` (R161(c), R233, R335). -/
def endpointOf (c : Params) (n : Nat) : Option EpId := if n < c.numEp then EpId.ofNat? n else none

/-- The endpoints of the block, in order. -/
def endpoints (c : Params) : List EpId := allEps.filter (onMap c)

/-- The endpoints other than EP0, in the order of `for e in 1 … NUM_EP-1` (R329). -/
def nonControl (c : Params) : List EpId := (endpoints c).filter (· != .ep0)

/-- The entry of an endpoint in `EP_MAP`, if it has one (R6). -/
def entryOf (c : Params) (e : EpId) : Option EpEntry := c.epMap[e.num]?

/-- A packet size of `EP_MAP` in bytes (R6). -/
def mpsBytes (c : Params) : EpMps → Nat
  | .ep0Mps => c.ep0Mps
  | .bulkMps => c.bulkMps
  | .intMps => c.intMps
  | .bytes n => n

/-- `mps(e)`, the maximum packet size from `EP_MAP` (R6, R7); EP0's is `EP0_MPS` in every map (R203). -/
def mps (c : Params) (e : EpId) : Nat :=
  if e = .ep0 then c.ep0Mps
  else match entryOf c e with
    | some x => mpsBytes c x.mps
    | none => 0

/-- `dirOf(e)` for e ≠ 0, from `EP_MAP` (R6, R7). EP0 has both directions; no rule reads `dirOf` of it
(log 30). -/
def dirOf (c : Params) (e : EpId) : Dir :=
  match entryOf c e with
  | some ⟨_, .only d, _, _⟩ => d
  | some ⟨_, .both, _, _⟩ => .rx
  | none => .rx

/-- Whether an endpoint has a direction: EP0 has both (R7). -/
def hasDir (c : Params) (e : EpId) (d : Dir) : Bool := e == .ep0 || dirOf c e == d

/-- Whether an endpoint has a type, direction and interface in `EP_MAP` (R6). -/
def hasRole (c : Params) (t : EpType) (d : Dir) (i : BitVec 8) (e : EpId) : Bool :=
  match entryOf c e with
  | some x => x.type == t && x.dir == .only d && x.iface == some i
  | none => false

/-- The endpoint of a role, the lowest-numbered one if there are more (R7; log 36). -/
def epOfRole (c : Params) (t : EpType) (d : Dir) (i : BitVec 8) : Option EpId :=
  (nonControl c).find? (hasRole c t d i)

/-- `epBulkIn`, 2 in the default map (R7; log 36). -/
def epBulkIn (c : Params) : Option EpId := epOfRole c .bulk .tx c.ifVendor
/-- `epBulkOut`, 1 in the default map (R7; log 36). -/
def epBulkOut (c : Params) : Option EpId := epOfRole c .bulk .rx c.ifVendor
/-- `epNotify`, 3 in the default map (R7; log 36). -/
def epNotify (c : Params) : Option EpId := epOfRole c .interrupt .tx c.ifCdcComm
/-- `epCdcOut`, 4 in the default map (R7; log 36). -/
def epCdcOut (c : Params) : Option EpId := epOfRole c .bulk .rx c.ifCdcData
/-- `epCdcIn`, 5 in the default map (R7; log 36). -/
def epCdcIn (c : Params) : Option EpId := epOfRole c .bulk .tx c.ifCdcData

/-! ## The hooks (R6, R410, R376, R413) -/

/-- `VENDOR_HOOK(setup)` with read access to `dev`: the first row of the table for the packet and device
state, else `Stall(S7)` with nothing written (log 19). -/
def vendorReply (rows : List HookRow) (p : Setup) (d : DeviceState) : HookReply :=
  match rows.find? fun r => r.packet == p && r.dev.all (· == d) with
  | some r => r.reply
  | none => ⟨[], [], .stall .s7⟩

/-- What the SOF hook emits for a frame: nothing where the table has no row (R376; log 20). -/
def sofEvents (c : Params) (f : BitVec 11) : List OutEvent :=
  match (c.sofHook.getD []).find? fun r => r.frame == f with
  | some r => r.events
  | none => []

/-- `BACKEND_APPLY(b)`: the identity where the table has no row (R6, R413; log 20). -/
def backendApply (c : Params) (b : LineCoding) : LineCoding :=
  match c.backendApply.find? fun r => r.given == b with
  | some r => r.applied
  | none => b

/-! ## Memory (R10, R80-R83, R90) -/

/-- `BUF(e, d, k)` (R81). -/
def bufAddr (c : Params) (e : EpId) (d : Dir) (k : Bool) : Addr :=
  match c.buf[e.num]? with
  | some p => (p.get d).get k
  | none => 0

/-- The RAM regions of R81. -/
def ramRegions (c : Params) : List Region :=
  ((endpoints c).flatMap fun e => [Dir.rx, Dir.tx].flatMap fun d => [false, true].map fun k =>
    ⟨(bufAddr c e d k).toNat, mps c e⟩) ++
  [⟨c.scratchAddr.toNat, c.ep0Mps⟩, ⟨c.lcAddr.toNat, 7⟩]

/-- The ROM regions of R81: the descriptors. `STRINGS` has no region (R200): the model's choice (log 41). -/
def descRegions (c : Params) : List Region :=
  [⟨c.devDescAddr.toNat, c.deviceDesc.length⟩,
   ⟨c.cfgDescAddr.toNat, c.configDesc.length⟩,
   ⟨c.langidAddr.toNat, c.langidDesc.length⟩]

/-- Every ROM range: the descriptors and the further ranges of the configuration (log 14). The strings lie in none
of the model's own (R200; log 41). -/
def romRegions (c : Params) : List Region := descRegions c ++ c.rom

/-- Whether `n` bytes from address `a` on meet a region. -/
def meets (r : Region) (a n : Nat) : Bool :=
  decide (0 < n ∧ 0 < r.size ∧ a < r.base + r.size ∧ r.base < a + n)

/-- The byte a region holding `bs` at `base` has at address `a`. -/
def regionByte (base : Addr) (bs : List Byte) (a : Nat) : Option Byte :=
  if base.toNat ≤ a then bs[a - base.toNat]? else none

/-- The descriptor byte at a ROM address (R200). -/
def romByte (c : Params) (a : Nat) : Option Byte :=
  match regionByte c.devDescAddr c.deviceDesc a with
  | some b => some b
  | none => match regionByte c.cfgDescAddr c.configDesc a with
    | some b => some b
    | none => regionByte c.langidAddr c.langidDesc a

/-- What an unlisted address reads as: the descriptor byte in ROM (R480), 0 elsewhere (DESIGN CHOICE,
unsafe: RAM is "any" after INIT; log 8). -/
def unlisted (c : Params) (a : Nat) : Byte := (romByte c a).getD 0

/-- The byte listed at an address, if any. -/
def listed : List (Nat × Byte) → Nat → Option Byte
  | [], _ => none
  | (x, b) :: m, a => if x = a then some b else listed m a

/-- The list with a byte at an address, addresses rising. -/
def memPut : List (Nat × Byte) → Nat → Byte → List (Nat × Byte)
  | [], a, b => [(a, b)]
  | (x, c) :: m, a, b =>
    if a < x then (a, b) :: (x, c) :: m
    else if a = x then (a, b) :: m
    else (x, c) :: memPut m a b

/-- The list without an address. -/
def memDel : List (Nat × Byte) → Nat → List (Nat × Byte)
  | [], _ => []
  | (x, c) :: m, a => if x = a then m else (x, c) :: memDel m a

/-- Write one byte, keeping the canonical form. -/
def poke (c : Params) (m : List (Nat × Byte)) (a : Nat) (b : Byte) : List (Nat × Byte) :=
  if b = unlisted c a then memDel m a else memPut m a b

/-- Write bytes at rising addresses. -/
def pokes (c : Params) : List (Nat × Byte) → Nat → List Byte → List (Nat × Byte)
  | m, _, [] => m
  | m, a, b :: bs => pokes c (poke c m a b) (a + 1) bs

/-- Read one byte. -/
def peek (s : State) (a : Nat) : Byte := (listed s.mem a).getD (unlisted s.cfg a)

/-- Read bytes at rising addresses. -/
def peeks (s : State) : Nat → Nat → List Byte
  | _, 0 => []
  | a, n + 1 => peek s a :: peeks s (a + 1) n

/-- The canonical form of memory: addresses strictly rising from `lo` on and below 2^32, no byte equal to
what its address reads as unlisted, and no descriptor address listed (R83). -/
def memWfFrom (c : Params) : Nat → List (Nat × Byte) → Bool
  | _, [] => true
  | lo, (x, b) :: m =>
    decide (lo ≤ x) && decide (x < 2 ^ 32) && b != unlisted c x && (romByte c x).isNone &&
      memWfFrom c (x + 1) m

/-- The canonical form of a state's memory. -/
def memWf (s : State) : Bool := memWfFrom s.cfg 0 s.mem

/-- `MemRead(a, n)` (R10). Bytes past the 32-bit space fault (R80; log 17). -/
def load (s : State) (a : Addr) (n : Nat) : Host.Outcome (List Byte) Fault Refusal :=
  if a.toNat + n ≤ 2 ^ 32 then .next (peeks s a.toNat n) else .fault .addressSpace

/-- `MemWrite(a, n, bytes)` (R10). Bytes past the 32-bit space fault; a ROM address is refused (R83). -/
def store (s : State) (a : Addr) (bs : List Byte) : Res :=
  if 2 ^ 32 < a.toNat + bs.length then .fault .addressSpace
  else if (romRegions s.cfg).any fun r => meets r a.toNat bs.length then .refused .romWrite
  else .next { s with mem := pokes s.cfg s.mem a.toNat bs }

/-- The 7 bytes of a line coding (R121). -/
def lineCodingBytes (b : LineCoding) : List Byte :=
  bytes32 b.dwDTERate ++ [b.bCharFormat, b.bParityType, b.bDataBits]

/-- The line coding in 7 bytes (R121). -/
def lineCodingOf : List Byte → LineCoding
  | [b0, b1, b2, b3, b4, b5, b6] => ⟨le32 b0 b1 b2 b3, b4, b5, b6⟩
  | _ => ⟨0, 0, 0, 0⟩

/-! ## Endpoints, slots, SIE -/

/-- Replace an endpoint's record. -/
def setEp (s : State) (e : EpId) (x : EndpointState) : State := { s with ep := s.ep.set e x }

/-- Both slots of an endpoint and direction. -/
def slots (s : State) (e : EpId) (d : Dir) : HalfPair Slot := (s.bdt.get e).get d

/-- The slot `bdt[e][d][k]` (R9). -/
def slot (s : State) (e : EpId) (d : Dir) (k : Bool) : Slot := (slots s e d).get k

/-- Replace both slots of an endpoint and direction. -/
def setSlots (s : State) (e : EpId) (d : Dir) (p : HalfPair Slot) : State :=
  { s with bdt := s.bdt.set e ((s.bdt.get e).set d p) }

/-- Replace the slot `bdt[e][d][k]`. -/
def setSlot (s : State) (e : EpId) (d : Dir) (k : Bool) (x : Slot) : State :=
  setSlots s e d ((slots s e d).set k x)

/-- Replace the device registers. -/
def setDev (s : State) (d : DeviceState) : State := { s with dev := d }

/-- Replace the SIE's state. -/
def setSie (s : State) (x : Sie) : State := { s with sie := x }

/-- Whether a completion is of an endpoint. -/
def ofEp (c : Completion) (e : EpId) : Bool := c.ep.toNat == e.num

/-- `sieResetDir(e, d)`: the pointer goes to 0 and the queued completions of (e, d) are removed (R173). -/
def sieResetDir (s : State) (e : EpId) (d : Dir) : State :=
  setSie s { s.sie with
    odd := s.sie.odd.set e ((s.sie.odd.get e).set d false)
    tokq := s.sie.tokq.filter fun c => !(ofEp c e && c.dir == d) }

/-- `sieResetEndpoint(e)` (R173). -/
def sieResetEndpoint (s : State) (e : EpId) : State := sieResetDir (sieResetDir s e .rx) e .tx

/-- `sieResetAll()`: every endpoint, then the queue and the token suspension (R173). -/
def sieResetAll (s : State) : State :=
  setSie s { s.sie with
    odd := EpBank.tabulate fun _ => ⟨false, false⟩
    tokq := []
    tokenSuspended := false }

/-- `sieReleaseTokens()` (R173). -/
def sieReleaseTokens (s : State) : State := setSie s { s.sie with tokenSuspended := false }

/-! ## Outputs, faults, free draws -/

/-- `emit E` (R11, R50). -/
def emit (s : State) (e : OutEvent) : State := { s with out := s.out ++ [e] }

/-- The fault set with a reason added (R443). -/
def addReason (f : FaultSet) : FaultReason → FaultSet
  | .f1 => { f with f1 := true }
  | .f2 => { f with f2 := true }
  | .f3 => { f with f3 := true }
  | .f4 => { f with f4 := true }
  | .f5 => { f with f5 := true }

/-- Whether a reason is in the fault set. -/
def hasReason (f : FaultSet) : FaultReason → Bool
  | .f1 => f.f1 | .f2 => f.f2 | .f3 => f.f3 | .f4 => f.f4 | .f5 => f.f5

/-- `raise Fault(r)`: `fault <- fault ∪ {r}; emit Log(Fault(r))`, and nothing else (R443). -/
def raiseFault (s : State) (r : FaultReason) : State :=
  emit { s with fault := addReason s.fault r } (.log (.fault r))

/-- `n` bytes of the draw `any(n)`, numbered from `i` on (R10). -/
def freeBytes : Nat → Nat → List Byte
  | _, 0 => []
  | i, n + 1 => Config.freeByte i :: freeBytes (i + 1) n

/-- The non-zero error bits of draw `i` (R38, R162, R163). -/
def freeErrBits (i : Nat) : Byte := if Config.freeErr i = 0 then 1 else Config.freeErr i

/-! ## Arming (R231, R232) -/

/-- R490's flag: a slot about to be armed is owned by the SIE already (log 37). -/
def flagOwned (s : State) (e : EpId) (d : Dir) (k : Bool) : State :=
  { s with ownedWrite := s.ownedWrite || (slot s e d k).own }

/-- Fill a slot and hand it to the SIE; its `pid` is not written (R92, R231). A slot the SIE owns already is
flagged (R490). -/
def armSlot (s : State) (e : EpId) (d : Dir) (k : Bool) (a : Addr) (n : Nat) (tog : Bool) : State :=
  setSlot (flagOwned s e d k) e d k { slot s e d k with
    addr := a, bc := BitVec.ofNat 10 n, data01 := tog, stall := false, own := true }

/-- Set an endpoint's phase. -/
def setPhase (s : State) (e : EpId) (p : Phase) : State :=
  setEp s e { s.ep.get e with phase := p }

/-- The size of the next packet: `min(remaining, mps(e))` (R231, R232). -/
def nextPacket (s : State) (e : EpId) : Nat := min (s.ep.get e).remaining.toNat (mps s.cfg e)

/-- `armIn(e)` (R231). -/
def armIn (s : State) (e : EpId) : State :=
  let x := s.ep.get e
  let n := nextPacket s e
  setPhase (armSlot s e .tx x.odd.tx x.ptr n x.toggle.tx) e
    (if n < mps s.cfg e then .lastIn else .dataIn)

/-- `armOut(e)`, e ≠ 0 (R232). -/
def armOut (s : State) (e : EpId) : State :=
  let x := s.ep.get e
  setPhase (armSlot s e .rx x.odd.rx x.ptr (nextPacket s e) x.toggle.rx) e .dataOut

/-- `armEp0Rx()` (R232). -/
def armEp0Rx (s : State) : State :=
  let x := s.ep.ep0
  armSlot s .ep0 .rx x.odd.rx (bufAddr s.cfg .ep0 .rx x.odd.rx) s.cfg.ep0Mps x.toggle.rx

/-- `armEp0StatusIn()` (R232). -/
def armEp0StatusIn (s : State) : State :=
  let x := s.ep.ep0
  setPhase (armSlot s .ep0 .tx x.odd.tx (bufAddr s.cfg .ep0 .tx x.odd.tx) 0 x.toggle.tx)
    .ep0 .statusIn

/-- Set an endpoint's cursor to the start of a transfer (R233, R234). -/
def setCursor (s : State) (e : EpId) (a : Addr) (len : BitVec 16) : State :=
  setEp s e { s.ep.get e with ptr := a, remaining := len, xferred := 0 }

/-- `beginTx(e, len, a)` (R233). -/
def beginTx (s : State) (e : EpId) (len : BitVec 16) (a : Addr) : State :=
  armIn (setCursor s e a len) e

/-- `startRx`'s effect (R234). -/
def beginRx (s : State) (e : EpId) (len : BitVec 16) (a : Addr) : State :=
  armOut (setCursor s e a len) e

/-- Register a callback, or none. -/
def setCb (s : State) (e : EpId) (cb : Option Callback) : State :=
  setEp s e { s.ep.get e with callback := cb }

/-! ## Taking slots back: stall, clearStall, teardown, build (R238, R239, R330) -/

/-- A slot taken back by the block, with its stall bit set to `st`. -/
def takeBack (st : Bool) (x : Slot) : Slot := { x with own := false, stall := st }

/-- Both slots of (e, d) taken back. -/
def reclaim (s : State) (e : EpId) (d : Dir) (st : Bool) : State :=
  setSlots s e d ⟨takeBack st (slots s e d).even, takeBack st (slots s e d).odd⟩

/-- `stallEp(0)` (R238). -/
def stallEp0 (s : State) : State :=
  let x := s.ep.ep0
  let s := setEp s .ep0 { x with
    callback := none, toggle := ⟨false, false⟩, odd := { x.odd with tx := false } }
  let s := reclaim (sieResetDir s .ep0 .tx) .ep0 .tx true
  let kr := x.odd.rx
  let s := setSlot s .ep0 .rx (!kr) (takeBack true (slot s .ep0 .rx (!kr)))
  let s := setSlot s .ep0 .rx kr { slot s .ep0 .rx kr with
    addr := bufAddr s.cfg .ep0 .rx kr, bc := BitVec.ofNat 10 s.cfg.ep0Mps
    data01 := false, stall := true, own := true }
  setPhase s .ep0 .stall

/-- The part `stallEp` and `clearStallEp` share for e ≠ 0: callback dropped, both slots of its direction
taken back, SIE pointers and selectors to 0, toggle DATA0, and the phase given (R238, R239). -/
def haltReset (s : State) (e : EpId) (st : Bool) (p : Phase) : State :=
  let s := sieResetEndpoint (reclaim s e (dirOf s.cfg e) st) e
  let x := s.ep.get e
  setEp s e { x with
    callback := none, odd := ⟨false, false⟩, toggle := x.toggle.set (dirOf s.cfg e) false, phase := p }

/-- `stallEp(e)` (R238). -/
def stallEp (s : State) (e : EpId) : State :=
  if e = .ep0 then stallEp0 s else haltReset s e true .stall

/-- `clearStallEp(e)`, e ≠ 0 (R239). -/
def clearStallEp (s : State) (e : EpId) : State := haltReset s e false .idle

/-- `teardown(e)` and `build(e)`, e ≠ 0 (R330): they differ in `enabled` only. -/
def rebuild (s : State) (e : EpId) (enabled : Bool) : State :=
  let s := reclaim (reclaim s e .rx false) e .tx false
  let s := sieResetEndpoint s e
  setEp s e { s.ep.get e with
    phase := .idle, odd := ⟨false, false⟩, toggle := ⟨false, false⟩
    ptr := 0, remaining := 0, callback := none, enabled := enabled }

/-- `teardown(e)` (R330). -/
def teardown (s : State) (e : EpId) : State := rebuild s e false

/-- `build(e)` (R330). -/
def build (s : State) (e : EpId) : State := rebuild s e true

/-! ## The protocol error and its end -/

/-- `raise Stall(cause)`: `emit Log(RequestError(cause))`, then `stallEp(0)` (R277, R442). -/
def raiseStall (s : State) (c : StallCause) : State := stallEp0 (emit s (.log (.requestError c)))

/-- The resynchronisation at a SETUP, which ends a stall: selector flipped, every EP0 slot taken back,
callback dropped, toggles DATA1, phase Idle, counts 0 (R272, R288). -/
def resyncEp0 (s : State) : State :=
  let x := s.ep.ep0
  let s := setEp s .ep0 { x with
    odd := { x.odd with rx := !x.odd.rx }, callback := none, toggle := ⟨true, true⟩
    phase := .idle, remaining := 0, xferred := 0 }
  reclaim (reclaim s .ep0 .rx false) .ep0 .tx false

/-! ## The serial backend (R419) -/

/-- A call on the backend: its output event, and its effect. -/
def backendCall (s : State) : BackendCall → State
  | .setLineCoding b =>
    let s := emit s (.backendSetLineCoding b)
    { s with backend := { s.backend with
        lc := backendApply s.cfg b } }
  | .getLineCoding => emit s .backendGetLineCoding
  | .setControlLineState bits => emit s (.backendSetControlLineState bits)
  | .sendBreak dur => emit s (.backendSendBreak dur)

/-! ## Power-on (R480) -/

/-- The `INIT` line: every element at its value of R480. RAM and `setup` are "any" there and keep their
bytes; the parameters, the lines still to run and the draw counter are not the block's (log 9). -/
def powerOnAgain (s : State) : State :=
  { State.powerOn s.cfg with
    mem := s.mem, setup := s.setup, lines := s.lines, draws := s.draws }

end Sys2Proof.Machine
end

