-- ==== Sys2Proof/Machine/Operands.lean ====
section
/-! DEFINITION. Every operand form: the request targets and states (R113, R311, R335, R336), string encoding
(R206, R207), the descriptor lookup (R214), the client's endpoint and buffer operands (R233, R234, R494). -/

namespace Sys2Proof.Machine

/-! ## Device states in which a row is valid (R311) -/

/-- Default, Addressed or Configured. -/
def inDefAddrConf (s : State) : Bool :=
  s.dev.conn == .default || s.dev.conn == .addressed || s.dev.conn == .configured

/-- Default or Addressed. -/
def inDefAddr (s : State) : Bool := s.dev.conn == .default || s.dev.conn == .addressed

/-- Addressed or Configured. -/
def inAddrConf (s : State) : Bool := s.dev.conn == .addressed || s.dev.conn == .configured

/-- Configured; also `isConfigured()` (R54, R244). -/
def inConf (s : State) : Bool := s.dev.conn == .configured

/-! ## Targets in wIndex -/

/-- `epCheck(setup)`: the endpoint an endpoint-recipient request names, or none for S6 (R335). -/
def epCheck (s : State) (wIndex : BitVec 16) : Option EpId :=
  let t := lo8 wIndex
  if t.extractLsb' 4 3 ≠ 0 then none
  else match endpointOf s.cfg (t.extractLsb' 0 4).toNat with
    | none => none
    | some e =>
      if e = .ep0 then some .ep0
      else if inConf s && (t.getLsbD 7 == (dirOf s.cfg e).bit) then some e
      else none

/-- The interface target of a standard request: `wIndex[7:0] < NUM_IF` (R336). -/
def ifTargetOk (c : Params) (wIndex : BitVec 16) : Bool := decide ((lo8 wIndex).toNat < c.numIf)

/-- The interface target of a CDC request: `wIndex[7:0] = IF_CDC_COMM` (R411). -/
def cdcTargetOk (c : Params) (wIndex : BitVec 16) : Bool := lo8 wIndex == c.ifCdcComm

/-! ## Strings (R206, R207) -/

/-- A 16-bit code unit from the payload bits of a UTF-8 sequence. -/
def unit2 (a b : Byte) : BitVec 16 := 0#5 ++ a.extractLsb' 0 5 ++ b.extractLsb' 0 6

/-- A 16-bit code unit from a 3-byte UTF-8 sequence. -/
def unit3 (a b c : Byte) : BitVec 16 := a.extractLsb' 0 4 ++ b.extractLsb' 0 6 ++ c.extractLsb' 0 6

/-- `10xxxxxx`. -/
def isCont (b : Byte) : Bool := b.extractLsb' 6 2 == 2

/-- `utf8ToUnits(s)`: left to right, one unit per 1-, 2- or 3-byte sequence (R207). At a byte that begins
no such sequence the decoding ends; the build checks exclude such strings. -/
def utf8ToUnits : List Byte → List (BitVec 16)
  | [] => []
  | a :: rest =>
    if a.getLsbD 7 = false then a.setWidth 16 :: utf8ToUnits rest
    else match rest with
      | [] => []
      | b :: rest2 =>
        if a.extractLsb' 5 3 = 6 ∧ isCont b then unit2 a b :: utf8ToUnits rest2
        else match rest2 with
          | [] => []
          | c :: rest3 =>
            if a.extractLsb' 4 4 = 14 ∧ isCont b ∧ isCont c then unit3 a b c :: utf8ToUnits rest3
            else []

/-- A static string is valid UTF-8 with no 4-byte sequence, no overlong form and no encoded surrogate
(R207). -/
def utf8Valid : List Byte → Bool
  | [] => true
  | a :: rest =>
    if a.getLsbD 7 = false then utf8Valid rest
    else match rest with
      | [] => false
      | b :: rest2 =>
        if a.extractLsb' 5 3 = 6 ∧ isCont b then
          decide (0x80 ≤ (unit2 a b).toNat) && utf8Valid rest2
        else match rest2 with
          | [] => false
          | c :: rest3 =>
            a.extractLsb' 4 4 == 14 && isCont b && isCont c &&
              decide (0x800 ≤ (unit3 a b c).toNat) &&
              !(decide (0xD800 ≤ (unit3 a b c).toNat) && decide ((unit3 a b c).toNat ≤ 0xDFFF)) &&
              utf8Valid rest3

/-- `NSTR`, the length of the string table (R200). -/
def nstr (c : Params) : Nat := 4 + c.ifNames.length

/-- The source bytes of string index `i`, 1 ≤ i < NSTR (R200, R201). -/
def stringSource (c : Params) (i : Nat) : List Byte :=
  if i = 1 then c.manufacturer
  else if i = 2 then c.product
  else if i = 3 then c.serial
  else (c.ifNames[i - 4]?).getD []

/-- The string descriptor made of code units cut to what `EP0_MPS` bytes hold (R206). -/
def encodeUnits (ep0Mps : Nat) (u : List (BitVec 16)) : List Byte :=
  let k := min u.length ((ep0Mps - 2) / 2)
  BitVec.ofNat 8 (2 + 2 * k) :: 0x03 :: (u.take k).flatMap bytes16

/-- `encodeString(i)` (R206). -/
def encodeString (c : Params) (i : Nat) : List Byte :=
  encodeUnits c.ep0Mps (utf8ToUnits (stringSource c i))

/-! ## Descriptor lookup (R214) -/

/-- A reply source (R214). -/
inductive ReplySource where
  | rom (a : Addr) (n : Nat)
  | bytes (b : List Byte)
  deriving DecidableEq, Repr

/-- `descLookup(type, idx)`; `none` is IndexOutOfRange (R214). -/
def descLookup (c : Params) (type idx : Byte) : Option ReplySource :=
  if type = 0x01 then
    if idx = 0 then some (.rom c.devDescAddr c.deviceDesc.length) else none
  else if type = 0x02 then
    if idx = 0 then some (.rom c.cfgDescAddr c.configDesc.length) else none
  else if type = 0x03 then
    if idx = 0 then some (.rom c.langidAddr c.langidDesc.length)
    else if idx.toNat < nstr c then some (.bytes (encodeString c idx.toNat))
    else none
  else none

/-! ## The client's operands -/

/-- The endpoint a client command names: not EP0, below NUM_EP, enabled; else F2 (R233, R240-R242). -/
def clientEp (s : State) (e : BitVec 8) : Option EpId :=
  match endpointOf s.cfg e.toNat with
  | none => none
  | some e => if e ≠ .ep0 ∧ (s.ep.get e).enabled then some e else none

/-- The checks of startTx and startRx, in their order: F2, F5, F1, F3 (R233, R234). -/
def startCheck (s : State) (e : BitVec 8) (d : Dir) (len : BitVec 16) (buf : Addr) :
    Except FaultReason EpId :=
  match clientEp s e with
  | none => .error .f2
  | some i =>
    if hasDir s.cfg i d = false then .error .f5
    else if (s.ep.get i).phase ≠ .idle then .error .f1
    else if buf = 0 ∧ mps s.cfg i < len.toNat then .error .f3
    else .ok i

/-- Whether `n` bytes at `a` meet the buffer of a slot the SIE owns (R494(b)). -/
def meetsArmed (s : State) (a n : Nat) : Bool :=
  allEps.any fun e => [Dir.rx, Dir.tx].any fun d => [false, true].any fun k =>
    (slot s e d k).own && meets ⟨(slot s e d k).addr.toNat, (slot s e d k).bc.toNat⟩ a n

/-- A client buffer that R494(a) and (b) admit; NULL is always admitted, it stands for the endpoint's own
buffer (R233). For startRx it lies in RAM and meets no armed buffer (log 15). -/
def clientBufOk (s : State) (d : Dir) (buf : Addr) (len : BitVec 16) : Bool :=
  buf == 0 ||
    (decide (buf.toNat + len.toNat ≤ 2 ^ 32) &&
     !((ramRegions s.cfg ++ descRegions s.cfg).any fun r => meets r buf.toNat len.toNat) &&
     (d == .tx ||
       (!(s.cfg.rom.any fun r => meets r buf.toNat len.toNat) &&
        !(meetsArmed s buf.toNat len.toNat))))

/-- The address a transfer uses: the client's buffer, or the endpoint's own if it is NULL (R233, R234). -/
def transferAddr (s : State) (e : EpId) (d : Dir) (buf : Addr) : Addr :=
  if buf = 0 then bufAddr s.cfg e d ((s.ep.get e).odd.get d) else buf

end Sys2Proof.Machine
end

