-- ==== Sys2Proof/Machine/Stage.lean ====
section
/-! DEFINITION. The four outcomes of a request and how they are applied to EP0 (R273-R277), and the steps
request rules share: failing with a cause, staging a reply (R310). -/

namespace Sys2Proof.Machine

/-- What executing a request gives: its outcome, and the state with what it wrote (R273). -/
abbrev ReqRes := Host.Outcome (ReqOutcome × State) Fault Refusal

/-- A failed check: `return Stall(cause)`, with nothing written (R273, R310). -/
def fail (s : State) (c : StallCause) : ReqRes := .next (.stall c, s)

/-- `return NoData(cb)`. -/
def noData (s : State) (cb : Option Callback) : ReqRes := .next (.noData cb, s)

/-- `stage(b)` and the reply of its bytes: the bytes go to the TX buffer the SETUP handler has just taken
back, and are the whole reply (R310). -/
def replyStaged (s : State) (b : List Byte) : ReqRes :=
  let a := bufAddr s.cfg .ep0 .tx s.ep.ep0.odd.tx
  andThen (store s a b) fun s' => .next (.dataIn a b.length none, s')

/-- Outcome `NoData(cb)` (R276). -/
def applyNoData (s : State) (cb : Option Callback) : State :=
  armEp0Rx (armEp0StatusIn (setCb s .ep0 cb))

/-- Outcome `DataIn(a, L, cb)` of a packet whose bmRequestType is `bm` (R274). -/
def applyDataIn (s : State) (bm : Byte) (wLength : BitVec 16) (a : Addr) (len : Nat)
    (cb : Option Callback) : State :=
  if bm.getLsbD 7 then
    armEp0Rx (setCb (beginTx s .ep0 (BitVec.ofNat 16 (min len wLength.toNat)) a) .ep0 cb)
  else raiseStall s .s7

/-- Outcome `DataOut(a, L, cb)` of a packet whose bmRequestType is `bm`, L being its wLength (R132, R275). -/
def applyDataOut (s : State) (bm : Byte) (wLength : BitVec 16) (a : Addr) (cb : Option Callback) :
    State :=
  if bm.getLsbD 7 then raiseStall s .s7
  else if wLength = 0 then applyNoData s cb
  else armEp0Rx (setPhase (setCb (setCursor s .ep0 a wLength) .ep0 cb) .ep0 .dataOut)

/-- `apply(outcome)` (R274-R277). -/
def applyOutcome (s : State) (bm : Byte) (wLength : BitVec 16) : ReqOutcome → State
  | .dataIn a len cb => applyDataIn s bm wLength a len cb
  | .dataOut a cb => applyDataOut s bm wLength a cb
  | .noData cb => applyNoData s cb
  | .stall c => raiseStall s c

/-- The rest of the SETUP handler once a request has been executed: apply its outcome, then release the
tokens (R272). A request's meaning starts in the state after the resynchronisation of R272 and ends here
(log 24). -/
def finishRequest (bm : Byte) (wLength : BitVec 16) (r : ReqRes) : Res :=
  andThen r fun p => .next (sieReleaseTokens (applyOutcome p.2 bm wLength p.1))

end Sys2Proof.Machine
end

