-- ==== Sys2Proof/Machine/Cdc.lean ====
section
/-! DEFINITION. The class extension layer: the CDC hook's four requests, its fallbacks, and the vendor hook
(46_class_cdc.md, R410-R417). With no setup hook installed, every one of them stalls with S7 (R410). -/

namespace Sys2Proof.Machine

/-- The checks of the CDC hook in their order: hook installed S7, state S3, wLength S4, target S6
(R410, R411). -/
def cdcCheck (s : State) (lenOk : Bool) (wIndex : BitVec 16) : Option StallCause :=
  if s.hooks.setup = .absent then some .s7
  else if inConf s = false then some .s3
  else if lenOk = false then some .s4
  else if cdcTargetOk s.cfg wIndex = false then some .s6
  else none

/-- CDC_SET_LINE_CODING (R412). -/
def execCdcSetLineCoding (_wValue wIndex wLength : BitVec 16) (s : State) : Res :=
  finishRequest 0x21 wLength <|
    match cdcCheck s (wLength == 7) wIndex with
    | some c => fail s c
    | none => .next (.dataOut s.cfg.lcAddr (some .applyLineCoding), s)

/-- CDC_GET_LINE_CODING (R414). -/
def execCdcGetLineCoding (_wValue wIndex wLength : BitVec 16) (s : State) : Res :=
  finishRequest 0xA1 wLength <|
    match cdcCheck s true wIndex with
    | some c => fail s c
    | none =>
      andThen (store (backendCall s .getLineCoding) s.cfg.lcAddr (lineCodingBytes s.backend.lc))
        fun s' => .next (.dataIn s.cfg.lcAddr 7 none, s')

/-- CDC_SET_CONTROL_LINE_STATE (R415). -/
def execCdcSetControlLineState (wValue wIndex wLength : BitVec 16) (s : State) : Res :=
  finishRequest 0x21 wLength <|
    match cdcCheck s (wLength == 0) wIndex with
    | some c => fail s c
    | none => noData (backendCall s (.setControlLineState (wValue.extractLsb' 0 2))) none

/-- CDC_SEND_BREAK (R416). -/
def execCdcSendBreak (wValue wIndex wLength : BitVec 16) (s : State) : Res :=
  finishRequest 0x21 wLength <|
    match cdcCheck s (wLength == 0) wIndex with
    | some c => fail s c
    | none => noData (backendCall s (.sendBreak wValue)) none

/-- CLASS_UNMATCHED (R417(a)). -/
def execClassUnmatched (bm _bRequest : BitVec 8) (_wValue _wIndex wLength : BitVec 16) (s : State) :
    Res :=
  finishRequest bm wLength (fail s .s7)

/-- RESERVED_TYPE (R417(b)). -/
def execReservedType (bm _bRequest : BitVec 8) (_wValue _wIndex wLength : BitVec 16) (s : State) :
    Res :=
  finishRequest bm wLength (fail s .s7)

/-! ## The vendor hook -/

/-- A hook's callback is none, ApplyLineCoding or Vendor(id) (R410(d)). -/
def hookCbOk : Option Callback → Bool
  | none => true
  | some .applyLineCoding => true
  | some (.vendor _) => true
  | some .commitAddress => false
  | some (.client _) => false

/-- The contract of R410 on a hook's answer to a packet of length field `wLength`: nothing written on a stall
path; a DataIn address with its bytes in the space; a DataOut address in RAM outside the regions of R81,
with the wLength bytes of its data stage; the callback kinds. -/
def hookReplyOk (c : Params) (wLength : BitVec 16) (r : HookReply) : Bool :=
  match r.outcome with
  | .stall _ => r.staging.isEmpty && r.calls.isEmpty
  | .noData cb => hookCbOk cb
  | .dataIn a len cb => hookCbOk cb && decide (a.toNat + len ≤ 2 ^ 32)
  | .dataOut a cb => hookCbOk cb && decide (a.toNat + wLength.toNat ≤ 2 ^ 32) &&
      !((ramRegions c ++ romRegions c).any fun q => meets q a.toNat wLength.toNat)

/-- The vendor hook keeps its contract in every row, or the configuration is refused (R446, R501). -/
def vendorHookOk (c : Params) : Bool :=
  (c.vendorHook.getD []).all fun r => hookReplyOk c r.packet.wLength r.reply

/-- An outcome whose data direction contradicts bmRequestType bit 7 (R274, R275, R501). -/
def contradicts (bm : Byte) : ReqOutcome → Bool
  | .dataIn _ _ _ => !bm.getLsbD 7
  | .dataOut _ _ => bm.getLsbD 7
  | .noData _ => false
  | .stall _ => false

/-- The staging-buffer bytes a hook writes, one by one (R410(b)). -/
def stagingWrites (s : State) : List (Fin 7 × Byte) → Res
  | [] => .next s
  | (i, b) :: r => andThen (store s (s.cfg.lcAddr + BitVec.ofNat 32 i) [b]) fun s' => stagingWrites s' r

/-- The vendor hook's answer put into effect: staging writes, backend calls, outcome. An answer whose data
direction contradicts the packet stalls with S7, and then its writes and calls have no effect: a request
that stalls leaves the backend and the staging buffers as they were (R289, R442, R501; log 38, a DESIGN
CHOICE over the order of R272-R275). -/
def runHookReply (s : State) (bm : Byte) (r : HookReply) : ReqRes :=
  if contradicts bm r.outcome then fail s .s7
  else andThen (stagingWrites s r.staging) fun s' => .next (r.outcome, r.calls.foldl backendCall s')

/-- VENDOR_REQUEST: `VENDOR_HOOK(setup)`, which reads `dev`, if one is installed, else S7 (R410, R411,
R417(c)). -/
def execVendorRequest (bm bRequest : BitVec 8) (wValue wIndex wLength : BitVec 16) (s : State) : Res :=
  finishRequest bm wLength <|
    if s.hooks.setup = .absent then fail s .s7
    else match s.cfg.vendorHook with
      | none => fail s .s7
      | some rows =>
        runHookReply s bm (vendorReply rows ⟨bm, bRequest, wValue, wIndex, wLength⟩ (devView s))

end Sys2Proof.Machine
end

