-- ==== Sys2Proof/Machine/Build.lean ====
section
/-! DEFINITION. The build checks: a configuration that fails one is refused, and no run starts (R202-R213,
R446, R481), with the parameter ranges of R6 and D4 and the placement rules of R81 and R133. -/

namespace Sys2Proof.Machine

/-- The block cut into descriptors by `bLength`; none if a length is below 2 or the walk does not end at
the end of the block (R125, R202). The first argument bounds the number of descriptors. -/
def splitDescs : Nat → List Byte → Option (List (List Byte))
  | _, [] => some []
  | 0, _ :: _ => none
  | n + 1, b :: r =>
    if b.toNat < 2 ∨ (b :: r).length < b.toNat then none
    else match splitDescs n ((b :: r).drop b.toNat) with
      | none => none
      | some ds => some ((b :: r).take b.toNat :: ds)

/-- Byte `i` of a descriptor as a number, 0 past its end. -/
def fld (d : List Byte) (i : Nat) : Nat := ((d[i]?).getD 0).toNat

/-- A descriptor of a type and length (R125). -/
def isDesc (type len : Nat) (d : List Byte) : Bool := fld d 1 == type && d.length == len

/-- A string index that is 0 or names an interface string (R204, R205, R212). -/
def nameIdxOk (c : Params) (i : Nat) : Bool := i == 0 || (decide (4 ≤ i) && decide (i < nstr c))

/-- Each interface descriptor (type 0x04) with the descriptors that follow it up to the next one; first,
the descriptors before any interface. -/
def groupByInterface : List (List Byte) → List (List Byte) × List (List Byte × List (List Byte))
  | [] => ([], [])
  | d :: ds =>
    let g := groupByInterface ds
    if fld d 1 = 0x04 then ([], (d, g.1) :: g.2) else (d :: g.1, g.2)

/-- The endpoint descriptors (type 0x05) of a list (R210). -/
def endpointDescs (ds : List (List Byte)) : List (List Byte) := ds.filter fun d => fld d 1 == 0x05

/-- A transfer type as `bmAttributes[1:0]` has it (R6, R210). -/
def typeCode : EpType → Nat
  | .control => 0
  | .bulk => 2
  | .interrupt => 3

/-- `bEndpointAddress` of an endpoint of the map: bit 7 is the direction (R119, R210). -/
def endpointAddress (c : Params) (e : EpId) : Nat := e.num + (if dirOf c e = .tx then 0x80 else 0)

/-- An endpoint descriptor that describes endpoint `e` of entry `x` (R210). -/
def describes (c : Params) (e : EpId) (x : EpEntry) (d : List Byte) : Bool :=
  d.length == 7 && fld d 2 == endpointAddress c e && fld d 3 % 4 == typeCode x.type &&
    fld d 4 + 256 * fld d 5 == mps c e

/-- Device descriptor checks (R203). -/
def deviceDescOk (c : Params) : Bool :=
  let d := c.deviceDesc
  d.length == 18 && fld d 0 == 18 && fld d 1 == 0x01 && fld d 7 == c.ep0Mps && fld d 17 == c.numConfig &&
    (fld d 14 == 0 || fld d 14 == 1) && (fld d 15 == 0 || fld d 15 == 2) &&
    (fld d 16 == 0 || fld d 16 == 3)

/-- Configuration header and attribute checks (R202, R204, R211). -/
def configHeaderOk (c : Params) (h : List Byte) : Bool :=
  isDesc 0x02 9 h && fld h 2 + 256 * fld h 3 == c.configDesc.length && fld h 4 == c.numIf &&
    fld h 5 == 1 && nameIdxOk c (fld h 6) &&
    fld h 7 == 0x80 + (if c.selfPowered then 0x40 else 0) +
      (if c.remoteWakeupCapable then 0x20 else 0)

/-- Interface checks for one interface number: exactly one descriptor of it, alternate setting 0, the
endpoint count that follows it, its name (R205). -/
def interfaceOk (c : Params) (gs : List (List Byte × List (List Byte))) (n : Nat) : Bool :=
  match gs.filter fun g => fld g.1 2 == n with
  | [g] => g.1.length == 9 && fld g.1 3 == 0 && fld g.1 4 == (endpointDescs g.2).length &&
      nameIdxOk c (fld g.1 8)
  | _ => false

/-- Endpoint checks for one endpoint of the map: exactly one descriptor has its address, it is the
descriptor of the map's endpoint, and it follows its interface (R210). -/
def endpointOk (c : Params) (ds : List (List Byte)) (gs : List (List Byte × List (List Byte)))
    (e : EpId) : Bool :=
  ((endpointDescs ds).filter fun d => fld d 2 == endpointAddress c e).length == 1 &&
    (entryOf c e).any fun x => gs.any fun g =>
      x.iface.any (fun i => fld g.1 2 == i.toNat) && (endpointDescs g.2).any (describes c e x)

/-- Whether an IAD for the CDC function stands before the interface descriptor of `IF_CDC_COMM`; every
other IAD only has its name checked (R212, R213). -/
def iadBefore (c : Params) : List (List Byte) → Bool
  | [] => false
  | d :: ds =>
    if fld d 1 = 0x04 ∧ fld d 2 = c.ifCdcComm.toNat then false
    else if isDesc 0x0B 8 d && fld d 2 == c.ifCdcComm.toNat && fld d 3 == 2 then true
    else iadBefore c ds

/-- The four CDC functional descriptors (type 0x24) stand between the interface descriptor of `IF_CDC_COMM` and
the next one. Their contents, the subtype among them, are not checked (R213; log 39). -/
def functionalOk (c : Params) (gs : List (List Byte × List (List Byte))) : Bool :=
  gs.any fun g => fld g.1 2 == c.ifCdcComm.toNat &&
    decide (4 ≤ (g.2.filter fun d => fld d 1 == 0x24).length)

/-- The checks over the whole configuration block (R202, R204, R205, R210-R213). A further descriptor of type 0x01
or 0x02 may stand in its body, and no string index is read of one, as of every type but the header, the
interfaces and the IADs: the model's choice (log 42). -/
def configDescOk (c : Params) : Bool :=
  match splitDescs c.configDesc.length c.configDesc with
  | some (h :: ds) =>
    let gs := (groupByInterface ds).2
    configHeaderOk c h &&
      gs.length == c.numIf && (List.range c.numIf).all (interfaceOk c gs) &&
      (endpointDescs (h :: ds)).length == (nonControl c).length &&
      (nonControl c).all (endpointOk c ds gs) &&
      iadBefore c ds && functionalOk c gs &&
      ds.all (fun d => fld d 1 != 0x0B || nameIdxOk c (fld d 7))
  | _ => false

/-- Language-ID descriptor checks (R209). -/
def langidOk (c : Params) : Bool :=
  let d := c.langidDesc
  d.length % 2 == 0 && decide (4 ≤ d.length) && decide (d.length ≤ 255) &&
    fld d 0 == d.length && fld d 1 == 0x03

/-- Static string checks (R207, R208). -/
def staticStringOk (c : Params) (b : List Byte) : Bool :=
  utf8Valid b && decide (2 + 2 * (utf8ToUnits b).length ≤ c.ep0Mps) &&
    decide (2 + 2 * (utf8ToUnits b).length ≤ 255)

/-- Every string check: the static strings, and `SERIAL_STRING` in ASCII (R207, R208). -/
def stringsOk (c : Params) : Bool :=
  staticStringOk c c.manufacturer && staticStringOk c c.product &&
    c.ifNames.all (staticStringOk c) && c.serial.all (fun b => !b.getLsbD 7)

/-- Two regions share no address. -/
def apart (r q : Region) : Bool :=
  decide (r.size = 0 ∨ q.size = 0 ∨ r.base + r.size ≤ q.base ∨ q.base + q.size ≤ r.base)

/-- Regions pairwise disjoint. -/
def pairwiseApart : List Region → Bool
  | [] => true
  | r :: rs => rs.all (apart r) && pairwiseApart rs

/-- A region inside the 32-bit space (R80). -/
def inSpace (r : Region) : Bool := decide (r.base + r.size ≤ 2 ^ 32)

/-- Placement: the regions of R81 in the space and pairwise disjoint, no buffer region at address 0, the NULL
of R133, every ROM range apart from RAM. -/
def placementOk (c : Params) : Bool :=
  (ramRegions c).all (fun r => inSpace r && decide (0 < r.base)) && (descRegions c).all inSpace &&
    (ramRegions c).all (fun r => (romRegions c).all (apart r)) &&
    pairwiseApart (ramRegions c) && pairwiseApart (descRegions c)

/-- The parameters whose adopted value other rules state: one configuration (R203), and the widths of the
state's fields (R34, R39, R42, R80; log 36). -/
def widthsOk (c : Params) : Bool :=
  c.numConfig == 1 && (c.bcWidth == 10 && (c.addrWidth == 32 &&
    (c.usbAddrWidth == 7 && c.frameWidth == 11)))

/-- The entry of EP0: control, both directions, `EP0_MPS`, no interface (R6, R7). -/
def controlEntryOk (c : Params) (x : EpEntry) : Bool :=
  x.type == .control && x.dir == .both && mpsBytes c x.mps == c.ep0Mps && x.iface == none

/-- The entry of another endpoint: bulk or interrupt (R210), one direction (R7), a packet size of its type
(D4, R245), an interface (R210). -/
def clientEntryOk (c : Params) (x : EpEntry) : Bool :=
  x.dir != .both && x.iface.isSome &&
    match x.type with
    | .control => false
    | .bulk => [8, 16, 32, 64].contains (mpsBytes c x.mps)
    | .interrupt => decide (1 ≤ mpsBytes c x.mps) && decide (mpsBytes c x.mps ≤ 64)

/-- `NUM_EP` and `EP_MAP`: 2 to 16 endpoints (R57, R119), as many entries and buffers, each entry one its endpoint can have, and
a SERIAL_STATE notification fits one packet of the notification endpoint (R6, D4; log 36). -/
def mapOk (c : Params) : Bool :=
  decide (2 ≤ c.numEp) && decide (c.numEp ≤ 16) && c.epMap.length == c.numEp && c.buf.length == c.numEp &&
    (entryOf c .ep0).any (controlEntryOk c) &&
    (nonControl c).all (fun e => (entryOf c e).any (clientEntryOk c)) &&
    (epNotify c).all (fun e => decide (10 ≤ mps c e))

/-- Parameter ranges (R6, D4, R245; log 23). -/
def rangesOk (c : Params) : Bool :=
  [8, 16, 32, 64].contains c.ep0Mps && [8, 16, 32, 64].contains c.bulkMps &&
    decide (10 ≤ c.intMps) && decide (c.intMps ≤ 64) &&
    decide (c.ifVendor.toNat < c.numIf) && decide (c.ifCdcComm.toNat < c.numIf) &&
    decide (c.ifCdcData.toNat < c.numIf) &&
    c.ifVendor != c.ifCdcComm && c.ifVendor != c.ifCdcData && c.ifCdcComm != c.ifCdcData

/-- Every build check (R446, R481(2)). -/
def buildOk (c : Params) : Bool :=
  widthsOk c && (mapOk c && (rangesOk c && (deviceDescOk c && (configDescOk c && (langidOk c && (stringsOk c &&
    (placementOk c && vendorHookOk c)))))))

end Sys2Proof.Machine
end

