-- ==== Sys2Proof/Machine/Engine.lean ====
section
/-! DEFINITION. The endpoint transfer engine: completion handlers and callbacks (R235-R237), the two
deferred commits CommitAddress (R322) and ApplyLineCoding (R413), and the check of a completion (R372). -/

namespace Sys2Proof.Machine

/-- `CommitAddress` (R322). -/
def commitAddress (s : State) : State :=
  let d := s.dev
  let conn :=
    if d.conn = .default ∧ d.pendingAddr ≠ 0 then .addressed
    else if d.conn = .addressed ∧ d.pendingAddr = 0 then .default
    else d.conn
  setDev s { d with addr := d.pendingAddr, conn := conn }

/-- `ApplyLineCoding` (R413). -/
def applyLineCoding (s : State) : Res :=
  if s.ep.ep0.xferred = 7 then
    andThen (load s s.cfg.lcAddr 7) fun b => .next (backendCall s (.setLineCoding (lineCodingOf b)))
  else .next s

/-- `fireCallback(e)`: the callback is cleared, then run (R237). -/
def fireCallback (s : State) (e : EpId) : Res :=
  let x := s.ep.get e
  let s' := setCb s e none
  match x.callback with
  | none => .next s'
  | some .commitAddress => .next (commitAddress s')
  | some .applyLineCoding => applyLineCoding s'
  | some (.client id) => .next (emit s' (.completed e id x.xferred))
  | some (.vendor id) => .next (emit s' (.completed e id x.xferred))

/-- The selector and toggle of a direction flipped after a completed packet (R248). -/
def flipDir (x : EndpointState) (d : Dir) : EndpointState :=
  { x with odd := x.odd.set d (!x.odd.get d), toggle := x.toggle.set d (!x.toggle.get d) }

/-- The cursor advanced by `n` bytes (R235, R236). -/
def advance (x : EndpointState) (n : BitVec 10) : EndpointState :=
  { x with
    ptr := x.ptr + n.setWidth 32
    remaining := x.remaining - n.setWidth 16
    xferred := x.xferred + n.setWidth 16 }

/-- `handleIn(e, k)` (R235). The dispatcher has checked that the phase is one of the three; in any other
phase the completion is unexpected (R443, F4). -/
def handleIn (s : State) (e : EpId) (k : Bool) : Res :=
  let x := advance (flipDir (s.ep.get e) .tx) (slot s e .tx k).bc
  let s' := setEp s e x
  match x.phase with
  | .dataIn => .next (armIn s' e)
  | .lastIn => fireCallback (setPhase s' e (if e = .ep0 then .statusOut else .idle)) e
  | .statusIn => fireCallback (setPhase s' e .idle) e
  | .idle | .dataOut | .statusOut | .throttle | .stall | .complete => .next (raiseFault s .f4)

/-- `handleOut(e, k)`, e ≠ 0 (R236). -/
def handleOut (s : State) (e : EpId) (k : Bool) : Res :=
  let n := (slot s e .rx k).bc
  let x := advance (flipDir (s.ep.get e) .rx) n
  let s' := setEp s e x
  if x.remaining = 0 ∨ n.toNat < mps s.cfg e then fireCallback (setPhase s' e .idle) e
  else .next (armOut s' e)

/-- `phaseExpects(e, pid, phase)` (R372). -/
def phaseExpects (e : EpId) (pid : BitVec 4) (p : Phase) : Bool :=
  if e = .ep0 then
    if pid = pidSetup then true
    else if pid = pidOut then p != .stall
    else p == .dataIn || p == .lastIn || p == .statusIn
  else if pid = pidIn then p == .dataIn || p == .lastIn
  else p == .dataOut

/-- `expected` (R372) for a completion of slot (e, d, k) whose row has the token PID `pid`: the endpoint
enabled, the slot the selector's, not owned, its PID the row's, and a phase that expects it. -/
def expected (s : State) (e : EpId) (d : Dir) (k : Bool) (pid : BitVec 4) : Bool :=
  let x := s.ep.get e
  let sl := slot s e d k
  x.enabled && k == x.odd.get d && !sl.own && sl.pid == pid && phaseExpects e pid x.phase

/-- Serve a completion: run its handler if it is expected, else drop it with fault F4 (R372, R443). -/
def serve (s : State) (e : EpId) (d : Dir) (k : Bool) (pid : BitVec 4) (handler : Res) : Res :=
  if expected s e d k pid then handler else .next (raiseFault s .f4)

/-- Serve a completion of an endpoint other than EP0 by its 4-bit number; no endpoint of the map has a
number of `NUM_EP` or more, and EP0 has rows of its own (R127, R372). -/
def serveEpn (s : State) (ep : BitVec 4) (d : Dir) (k : Bool) (pid : BitVec 4)
    (handler : EpId → Res) : Res :=
  match endpointOf s.cfg ep.toNat with
  | none => .next (raiseFault s .f4)
  | some e =>
    if e = .ep0 then .next (raiseFault s .f4)
    else serve s e d k pid (handler e)

/-- TOK_IN_EPN (R235). -/
def execTokInEpn (ep : BitVec 4) (odd : Bool) (s : State) : Res :=
  serveEpn s ep .tx odd pidIn fun e => handleIn s e odd

/-- TOK_OUT_EPN (R236). -/
def execTokOutEpn (ep : BitVec 4) (odd : Bool) (s : State) : Res :=
  serveEpn s ep .rx odd pidOut fun e => handleOut s e odd

/-- TOK_SETUP_EPN: a SETUP of an endpoint other than EP0 is never expected; it is dropped with fault F4
(R138, R372, R443). -/
def execTokSetupEpn (_ep : BitVec 4) (_odd : Bool) (s : State) : Res := .next (raiseFault s .f4)

end Sys2Proof.Machine
end

