-- ==== Sys2Proof/Machine/Requests.lean ====
section
/-! DEFINITION. The standard requests (44_standard_requests.md): one meaning per row of R116. Each runs the
checks state, wLength, target, value in that order (R310, D25), in the state after the SETUP handler's
resynchronisation, and then applies its outcome and releases the tokens (`finishRequest`). -/

namespace Sys2Proof.Machine

/-! ## GET_STATUS -/

/-- The device status byte: bit 0 self-powered, bit 1 remote wakeup (R124). -/
def deviceStatus (d : DeviceState) : Byte :=
  (if d.selfPowered then 1 else 0) ||| (if d.remoteWakeup then 2 else 0)

/-- GET_STATUS_DEVICE (R312). -/
def execGetStatusDevice (_wValue _wIndex wLength : BitVec 16) (s : State) : Res :=
  finishRequest 0x80 wLength <|
    if inDefAddrConf s = false then fail s .s3
    else if wLength ≠ 2 then fail s .s4
    else replyStaged s [deviceStatus s.dev, 0x00]

/-- GET_STATUS_INTERFACE (R313). -/
def execGetStatusInterface (_wValue wIndex wLength : BitVec 16) (s : State) : Res :=
  finishRequest 0x81 wLength <|
    if inConf s = false then fail s .s3
    else if wLength ≠ 2 then fail s .s4
    else if ifTargetOk s.cfg wIndex = false then fail s .s6
    else replyStaged s [0x00, 0x00]

/-- GET_STATUS_ENDPOINT (R314). -/
def execGetStatusEndpoint (_wValue wIndex wLength : BitVec 16) (s : State) : Res :=
  finishRequest 0x82 wLength <|
    if inDefAddrConf s = false then fail s .s3
    else if wLength ≠ 2 then fail s .s4
    else match epCheck s wIndex with
      | none => fail s .s6
      | some e => replyStaged s [if halted s e then 0x01 else 0x00, 0x00]

/-! ## CLEAR_FEATURE and SET_FEATURE -/

/-- A device feature request: DEVICE_REMOTE_WAKEUP is written with `v`, the other selectors stall
(R315, R318). -/
def deviceFeature (s : State) (feature : BitVec 16) (v : Bool) : ReqRes :=
  if feature = 1 then
    if s.cfg.remoteWakeupCapable then noData (setDev s { s.dev with remoteWakeup := v }) none
    else fail s .s10
  else if feature = 2 then fail s .s10
  else fail s .s5

/-- CLEAR_FEATURE_DEVICE (R315). -/
def execClearFeatureDevice (wValue _wIndex wLength : BitVec 16) (s : State) : Res :=
  finishRequest 0x00 wLength <|
    if inDefAddrConf s = false then fail s .s3
    else if wLength ≠ 0 then fail s .s4
    else deviceFeature s wValue false

/-- CLEAR_FEATURE_INTERFACE (R316). -/
def execClearFeatureInterface (_wValue wIndex wLength : BitVec 16) (s : State) : Res :=
  finishRequest 0x01 wLength <|
    if inConf s = false then fail s .s3
    else if wLength ≠ 0 then fail s .s4
    else if ifTargetOk s.cfg wIndex = false then fail s .s6
    else fail s .s10

/-- CLEAR_FEATURE_ENDPOINT (R317). -/
def execClearFeatureEndpoint (wValue wIndex wLength : BitVec 16) (s : State) : Res :=
  finishRequest 0x02 wLength <|
    if inDefAddrConf s = false then fail s .s3
    else if wLength ≠ 0 then fail s .s4
    else match epCheck s wIndex with
      | none => fail s .s6
      | some e =>
        if wValue ≠ 0 then fail s .s5
        else noData (if e = .ep0 then s else clearStallEp s e) none

/-- SET_FEATURE_DEVICE (R318). -/
def execSetFeatureDevice (wValue _wIndex wLength : BitVec 16) (s : State) : Res :=
  finishRequest 0x00 wLength <|
    if inDefAddrConf s = false then fail s .s3
    else if wLength ≠ 0 then fail s .s4
    else deviceFeature s wValue true

/-- SET_FEATURE_INTERFACE (R319). -/
def execSetFeatureInterface (_wValue wIndex wLength : BitVec 16) (s : State) : Res :=
  finishRequest 0x01 wLength <|
    if inConf s = false then fail s .s3
    else if wLength ≠ 0 then fail s .s4
    else if ifTargetOk s.cfg wIndex = false then fail s .s6
    else fail s .s10

/-- SET_FEATURE_ENDPOINT (R320). -/
def execSetFeatureEndpoint (wValue wIndex wLength : BitVec 16) (s : State) : Res :=
  finishRequest 0x02 wLength <|
    if inDefAddrConf s = false then fail s .s3
    else if wLength ≠ 0 then fail s .s4
    else match epCheck s wIndex with
      | none => fail s .s6
      | some e =>
        if wValue ≠ 0 then fail s .s5
        else noData (if e = .ep0 then s else stallEp s e) none

/-! ## SET_ADDRESS -/

/-- SET_ADDRESS (R321). -/
def execSetAddress (wValue _wIndex wLength : BitVec 16) (s : State) : Res :=
  finishRequest 0x00 wLength <|
    if inDefAddr s = false then fail s .s3
    else if wLength ≠ 0 then fail s .s4
    else if 127 < wValue.toNat then fail s .s5
    else noData (setDev s { s.dev with pendingAddr := wValue.setWidth 7 }) (some .commitAddress)

/-! ## GET_DESCRIPTOR and SET_DESCRIPTOR -/

/-- A GET_DESCRIPTOR reply from what the lookup found: ROM is sent in place, encoded bytes go to the
scratch buffer first; IndexOutOfRange stalls with S5 (R214, R323-R326). The scratch buffer then keeps those bytes,
which 93_implementation_defined.md section 3 calls unspecified between string replies: the model's choice (log 43). -/
def replyDescriptor (s : State) : Option ReplySource → ReqRes
  | none => fail s .s5
  | some (.rom a n) => .next (.dataIn a n none, s)
  | some (.bytes b) =>
    andThen (store s s.cfg.scratchAddr b) fun s' => .next (.dataIn s.cfg.scratchAddr b.length none, s')

/-- GET_DESCRIPTOR_DEVICE (R323). -/
def execGetDescriptorDevice (descIndex : BitVec 8) (_wIndex wLength : BitVec 16) (s : State) : Res :=
  finishRequest 0x80 wLength <|
    if inDefAddrConf s = false then fail s .s3
    else replyDescriptor s (descLookup s.cfg 0x01 descIndex)

/-- GET_DESCRIPTOR_CONFIGURATION (R324). -/
def execGetDescriptorConfiguration (descIndex : BitVec 8) (_wIndex wLength : BitVec 16) (s : State) :
    Res :=
  finishRequest 0x80 wLength <|
    if inDefAddrConf s = false then fail s .s3
    else replyDescriptor s (descLookup s.cfg 0x02 descIndex)

/-- GET_DESCRIPTOR_STRING (R325). -/
def execGetDescriptorString (descIndex : BitVec 8) (_wIndex wLength : BitVec 16) (s : State) : Res :=
  finishRequest 0x80 wLength <|
    if inDefAddrConf s = false then fail s .s3
    else replyDescriptor s (descLookup s.cfg 0x03 descIndex)

/-- GET_DESCRIPTOR_OTHER: every descriptor type but 1, 2 and 3 (R326). -/
def execGetDescriptorOther (_descType _descIndex : BitVec 8) (_wIndex wLength : BitVec 16)
    (s : State) : Res :=
  finishRequest 0x80 wLength <|
    if inDefAddrConf s = false then fail s .s3
    else fail s .s5

/-- SET_DESCRIPTOR: S2 in every state (R327). -/
def execSetDescriptor (_wValue _wIndex wLength : BitVec 16) (s : State) : Res :=
  finishRequest 0x00 wLength (fail s .s2)

/-! ## GET_CONFIGURATION and SET_CONFIGURATION -/

/-- GET_CONFIGURATION (R328). -/
def execGetConfiguration (_wValue _wIndex wLength : BitVec 16) (s : State) : Res :=
  finishRequest 0x80 wLength <|
    if inDefAddrConf s = false then fail s .s3
    else if wLength ≠ 1 then fail s .s4
    else replyStaged s [s.dev.config]

/-- The configuration change of SET_CONFIGURATION, at once and before the status stage (R329, C1). -/
def configure (s : State) (cfgValue : BitVec 16) : State :=
  if cfgValue = 1 then
    let s := (nonControl s.cfg).foldl build s
    setDev s { s.dev with config := 1, conn := .configured }
  else if s.dev.conn = .configured then
    let s := (nonControl s.cfg).foldl teardown s
    setDev s { s.dev with config := 0, conn := .addressed }
  else s

/-- SET_CONFIGURATION (R329). -/
def execSetConfiguration (wValue _wIndex wLength : BitVec 16) (s : State) : Res :=
  finishRequest 0x00 wLength <|
    if inAddrConf s = false then fail s .s3
    else if wLength ≠ 0 then fail s .s4
    else if 1 < wValue.toNat then fail s .s5
    else noData (configure s wValue) none

/-! ## GET_INTERFACE and SET_INTERFACE -/

/-- GET_INTERFACE (R331). -/
def execGetInterface (_wValue wIndex wLength : BitVec 16) (s : State) : Res :=
  finishRequest 0x81 wLength <|
    if inConf s = false then fail s .s3
    else if wLength ≠ 1 then fail s .s4
    else if ifTargetOk s.cfg wIndex = false then fail s .s6
    else replyStaged s [0x00]

/-- SET_INTERFACE (R332). -/
def execSetInterface (wValue wIndex wLength : BitVec 16) (s : State) : Res :=
  finishRequest 0x01 wLength <|
    if inConf s = false then fail s .s3
    else if wLength ≠ 0 then fail s .s4
    else if ifTargetOk s.cfg wIndex = false then fail s .s6
    else if wValue ≠ 0 then fail s .s5
    else noData s none

/-! ## Requests outside the supported list -/

/-- SYNCH_FRAME: S2 in every state (R333). -/
def execSynchFrame (_wValue _wIndex wLength : BitVec 16) (s : State) : Res :=
  finishRequest 0x82 wLength (fail s .s2)

/-- STD_UNMATCHED: S2 in every state (R334). -/
def execStdUnmatched (bm _bRequest : BitVec 8) (_wValue _wIndex wLength : BitVec 16) (s : State) : Res :=
  finishRequest bm wLength (fail s .s2)

end Sys2Proof.Machine
end

