-- ==== Sys2Proof/Machine/Control.lean ====
section
/-! DEFINITION. The endpoint-0 control state machine (43_control_fsm.md): the SETUP, OUT and IN completions
of EP0, and the execution of a decoded request. -/

namespace Sys2Proof.Machine

/-- Execute the request a setup packet decodes to, apply its outcome and release the tokens (R272, R273).
`decodeSetup` gives SETUP rows only, so the other rows are never reached here. -/
def execRequest (i : Instr) (s : State) : Res :=
  match i with
  | .getStatusDevice v x l => execGetStatusDevice v x l s
  | .getStatusInterface v x l => execGetStatusInterface v x l s
  | .getStatusEndpoint v x l => execGetStatusEndpoint v x l s
  | .clearFeatureDevice v x l => execClearFeatureDevice v x l s
  | .clearFeatureInterface v x l => execClearFeatureInterface v x l s
  | .clearFeatureEndpoint v x l => execClearFeatureEndpoint v x l s
  | .setFeatureDevice v x l => execSetFeatureDevice v x l s
  | .setFeatureInterface v x l => execSetFeatureInterface v x l s
  | .setFeatureEndpoint v x l => execSetFeatureEndpoint v x l s
  | .setAddress v x l => execSetAddress v x l s
  | .getDescriptorDevice d x l => execGetDescriptorDevice d x l s
  | .getDescriptorConfiguration d x l => execGetDescriptorConfiguration d x l s
  | .getDescriptorString d x l => execGetDescriptorString d x l s
  | .getDescriptorOther t d x l => execGetDescriptorOther t d x l s
  | .setDescriptor v x l => execSetDescriptor v x l s
  | .getConfiguration v x l => execGetConfiguration v x l s
  | .setConfiguration v x l => execSetConfiguration v x l s
  | .getInterface v x l => execGetInterface v x l s
  | .setInterface v x l => execSetInterface v x l s
  | .synchFrame v x l => execSynchFrame v x l s
  | .stdUnmatched b r v x l => execStdUnmatched b r v x l s
  | .cdcSetLineCoding v x l => execCdcSetLineCoding v x l s
  | .cdcGetLineCoding v x l => execCdcGetLineCoding v x l s
  | .cdcSetControlLineState v x l => execCdcSetControlLineState v x l s
  | .cdcSendBreak v x l => execCdcSendBreak v x l s
  | .classUnmatched b r v x l => execClassUnmatched b r v x l s
  | .vendorRequest b r v x l => execVendorRequest b r v x l s
  | .reservedType b r v x l => execReservedType b r v x l s
  | .tokSetupEp0 _ | .tokOutEp0 _ | .tokInEp0 _ | .tokOutEpn _ _ | .tokInEpn _ _ | .tokSetupEpn _ _
  | .evUsbrst | .evError | .evSoftok | .evTokdne | .evSleep | .evResume _ | .evStall
  | .startTx _ _ _ | .startRx _ _ _ | .stall _ | .clearStall _ | .setCallback _ _ | .notify _
  | .sendData _ _ | .receiveData _ _ | .isConfigured => .refused .commandWord

/-- The SETUP handler after the copy: resynchronise, then decode and execute the packet, or stall with S1
if it had not 8 bytes; the tokens are released (R272). -/
def setupRest (s : State) (p : Setup) (n : BitVec 10) : Res :=
  let s := resyncEp0 { s with setup := p }
  if n ≠ 8 then .next (sieReleaseTokens (raiseStall s .s1))
  else execRequest (decodeSetup p) s

/-- `handleSetup(k)`: copy the 8 bytes out first (R272, R492). -/
def handleSetup (s : State) (k : Bool) : Res :=
  andThen (load s (bufAddr s.cfg .ep0 .rx k) 8) fun b =>
    setupRest s ((Setup.ofList? b).getD s.setup) (slot s .ep0 .rx k).bc

/-- TOK_SETUP_EP0 (R272). -/
def execTokSetupEp0 (odd : Bool) (s : State) : Res :=
  serve s .ep0 .rx odd pidSetup (handleSetup s odd)

/-- EP0 OUT in DataOut (R279); `s` has its selector and toggle flipped already. -/
def outInDataOut (s : State) (k : Bool) (n : BitVec 10) : Res :=
  if s.ep.ep0.remaining.toNat < n.toNat then .next (raiseStall s .s9)
  else
    andThen (load s (bufAddr s.cfg .ep0 .rx k) n.toNat) fun b =>
    andThen (store s s.ep.ep0.ptr b) fun s =>
      let s := setEp s .ep0 (advance s.ep.ep0 n)
      if s.ep.ep0.remaining = 0 ∨ n.toNat < s.cfg.ep0Mps then
        fireCallback (armEp0Rx (armEp0StatusIn s)) .ep0
      else .next (armEp0Rx s)

/-- EP0 OUT in StatusOut (R280). -/
def outInStatusOut (s : State) (n : BitVec 10) : State :=
  if n = 0 then armEp0Rx (setPhase s .ep0 .idle) else raiseStall s .s8

/-- EP0 OUT in DataIn or LastIn: the host ends the IN data stage early (R281). -/
def outInDataIn (s : State) (n : BitVec 10) : State :=
  if n = 0 then
    let p := slots s .ep0 .tx
    let s := setSlots s .ep0 .tx ⟨{ p.even with own := false }, { p.odd with own := false }⟩
    let s := sieResetDir s .ep0 .tx
    let x := s.ep.ep0
    armEp0Rx (setEp s .ep0 { x with
      odd := { x.odd with tx := false }, callback := none, phase := .idle })
  else raiseStall s .s8

/-- `handleEp0Out(k)` (R278-R282). In Stall the dispatcher does not call it; in Throttle and Complete, which
no rule enters, it is refused (D69; log 21). -/
def handleEp0Out (s : State) (k : Bool) : Res :=
  let n := (slot s .ep0 .rx k).bc
  let s' := setEp s .ep0 (flipDir s.ep.ep0 .rx)
  match s.ep.ep0.phase with
  | .dataOut => outInDataOut s' k n
  | .statusOut => .next (outInStatusOut s' n)
  | .dataIn | .lastIn => .next (outInDataIn s' n)
  | .idle | .statusIn => .next (raiseStall s' .s8)
  | .stall => .next (raiseFault s .f4)
  | .throttle | .complete => .refused .phaseOutsideRules

/-- TOK_OUT_EP0 (R278). -/
def execTokOutEp0 (odd : Bool) (s : State) : Res :=
  serve s .ep0 .rx odd pidOut (handleEp0Out s odd)

/-- TOK_IN_EP0: `handleIn(0, k)` (R283, R284). -/
def execTokInEp0 (odd : Bool) (s : State) : Res :=
  serve s .ep0 .tx odd pidIn (handleIn s .ep0 odd)

end Sys2Proof.Machine
end

