-- ==== Sys2Proof/Machine/Events.lean ====
section
/-! DEFINITION. The bus-event handlers (45_device_state_bus_events.md, R372-R378), one meaning per EVENT row. -/

namespace Sys2Proof.Machine

/-! ## Bus reset (R373) -/

/-- A slot after a bus reset: everything cleared but its address (R373). -/
def busResetSlot (x : Slot) : Slot := ⟨false, false, false, 0, x.addr, 0⟩

/-- The four slots of an endpoint after a bus reset. -/
def busResetSlots (p : DirPair (HalfPair Slot)) : DirPair (HalfPair Slot) :=
  ⟨⟨busResetSlot p.rx.even, busResetSlot p.rx.odd⟩, ⟨busResetSlot p.tx.even, busResetSlot p.tx.odd⟩⟩

/-- The device registers after a bus reset (R373). -/
def busResetDev (c : Params) (d : DeviceState) : DeviceState :=
  { d with
    addr := 0, pendingAddr := 0, config := 0, remoteWakeup := false
    conn := .default, epActive := true
    istat := 0, errstat := 0, inten := c.intenDefault }

/-- EV_USBRST: the reset handler (R373); an endpoint number of `NUM_EP` or more, which has no endpoint, has its record
at the same values (log 36). `setup`, unspecified after a bus reset (93_implementation_defined.md
section 3), keeps its bytes (DESIGN CHOICE, unsafe; log 35). -/
def execEvUsbrst (s : State) : Res :=
  let s := sieResetAll s
  let s := { s with
    bdt := EpBank.tabulate fun e => busResetSlots (s.bdt.get e)
    ep := EpBank.tabulate EndpointState.powerOn }
  .next (armEp0Rx (setDev s (busResetDev s.cfg s.dev)))

/-! ## Token completions (R372) -/

/-- The completion to serve and the queue without it: the oldest of EP0 if there is one, else the oldest
(R372, D11). -/
def takeCompletion (q : List Completion) : Option (Completion × List Completion) :=
  match q.find? fun c => ofEp c .ep0 with
  | some c => some (c, q.erase c)
  | none => match q with
    | [] => none
    | c :: r => some (c, r)

/-- Run the handler of a completion row. `decodeCompletion` gives COMPLETION rows only, so the other rows
are never reached here. -/
def execCompletion (i : Instr) (s : State) : Res :=
  match i with
  | .tokSetupEp0 k => execTokSetupEp0 k s
  | .tokOutEp0 k => execTokOutEp0 k s
  | .tokInEp0 k => execTokInEp0 k s
  | .tokOutEpn e k => execTokOutEpn e k s
  | .tokInEpn e k => execTokInEpn e k s
  | .tokSetupEpn e k => execTokSetupEpn e k s
  | .getStatusDevice _ _ _ | .getStatusInterface _ _ _ | .getStatusEndpoint _ _ _
  | .clearFeatureDevice _ _ _ | .clearFeatureInterface _ _ _ | .clearFeatureEndpoint _ _ _
  | .setFeatureDevice _ _ _ | .setFeatureInterface _ _ _ | .setFeatureEndpoint _ _ _
  | .setAddress _ _ _ | .getDescriptorDevice _ _ _ | .getDescriptorConfiguration _ _ _
  | .getDescriptorString _ _ _ | .getDescriptorOther _ _ _ _ | .setDescriptor _ _ _
  | .getConfiguration _ _ _ | .setConfiguration _ _ _ | .getInterface _ _ _ | .setInterface _ _ _
  | .synchFrame _ _ _ | .stdUnmatched _ _ _ _ _ | .cdcSetLineCoding _ _ _ | .cdcGetLineCoding _ _ _
  | .cdcSetControlLineState _ _ _ | .cdcSendBreak _ _ _ | .classUnmatched _ _ _ _ _
  | .vendorRequest _ _ _ _ _ | .reservedType _ _ _ _ _
  | .evUsbrst | .evError | .evSoftok | .evTokdne | .evSleep | .evResume _ | .evStall
  | .startTx _ _ _ | .startRx _ _ _ | .stall _ | .clearStall _ | .setCallback _ _ | .notify _
  | .sendData _ _ | .receiveData _ _ | .isConfigured => .refused .commandWord

/-- The completion row of a queued completion: its word, with the PID of its slot, decoded (R127). A number
that is no endpoint of the map has no slot, and no row. -/
def completionRow (s : State) (c : Completion) : Option Instr :=
  match endpointOf s.cfg c.ep.toNat with
  | none => none
  | some e => decodeCompletion (completionWord (slot s e c.dir c.odd).pid c.ep c.dir c.odd)

/-- EV_TOKDNE: serve one completion; with no row for it, it is unexpected and dropped with F4 (R372, R130(g)).
With an empty queue TOKDNE reads 0 and there is nothing to serve (R166). -/
def execEvTokdne (s : State) : Res :=
  match takeCompletion s.sie.tokq with
  | none => .next s
  | some (c, q) =>
    let s := setSie s { s.sie with tokq := q }
    match completionRow s c with
    | none => .next (raiseFault s .f4)
    | some i => execCompletion i s

/-! ## Resume, stall, start of frame, sleep, error -/

/-- EV_RESUME with the debounce verdict `genuine` (R374). -/
def execEvResume (genuine : Bool) (s : State) : Res :=
  let s := setDev s (clearBits bitResume s.dev)
  if s.dev.conn = .suspended then
    if genuine then
      .next (setDev s (disableBits bitResume { s.dev with conn := .configured, epActive := true }))
    else .next (emit s (.log .spuriousResume))
  else .next (setDev s (disableBits bitResume s.dev))

/-- EV_STALL (R375). -/
def execEvStall (s : State) : Res := .next (setDev s (clearBits bitStall s.dev))

/-- EV_SOFTOK: the frame is reported, then the SOF hook, if installed, emits its events (R376). -/
def execEvSoftok (s : State) : Res :=
  let s := emit (setDev s (clearBits bitSoftok s.dev)) (.sof s.dev.frame)
  match s.hooks.sof with
  | .absent => .next s
  | .installed => .next ((sofEvents s.cfg s.dev.frame).foldl emit s)

/-- EV_SLEEP (R377). -/
def execEvSleep (s : State) : Res :=
  let s := setDev s (clearBits bitSleep s.dev)
  if s.dev.conn = .configured then
    .next (setDev s (enableBits bitResume (clearBits bitResume
      { s.dev with conn := .suspended, epActive := false })))
  else .next s

/-- EV_ERROR (R378). -/
def execEvError (s : State) : Res :=
  let s := emit s (.log (.busError s.dev.errstat))
  .next (setDev s (clearBits bitError { s.dev with errstat := 0 }))

end Sys2Proof.Machine
end

