-- ==== Sys2Proof/Machine/Client.lean ====
section
/-! DEFINITION. The client commands (R233, R234, R240-R244), the SERIAL_STATE notification (R418), and the
client's own steps: waking from a wait (R244, R452) and writing RAM (R96, R135). -/

namespace Sys2Proof.Machine

/-- startTx (R233). A failed check raises its fault; a buffer outside R494(a), (b) is refused (log 15). -/
def execStartTx (e : BitVec 8) (len : BitVec 16) (buf : BitVec 32) (s : State) : Res :=
  match startCheck s e .tx len buf with
  | .error r => .next (raiseFault s r)
  | .ok i =>
    if clientBufOk s .tx buf len then .next (beginTx s i len (transferAddr s i .tx buf))
    else .refused .clientBuffer

/-- startRx (R234). -/
def execStartRx (e : BitVec 8) (len : BitVec 16) (buf : BitVec 32) (s : State) : Res :=
  match startCheck s e .rx len buf with
  | .error r => .next (raiseFault s r)
  | .ok i =>
    if clientBufOk s .rx buf len then .next (beginRx s i len (transferAddr s i .rx buf))
    else .refused .clientBuffer

/-- stall (R241). -/
def execStall (e : BitVec 8) (s : State) : Res :=
  match clientEp s e with
  | none => .next (raiseFault s .f2)
  | some i => .next (stallEp s i)

/-- clearStall (R242). -/
def execClearStall (e : BitVec 8) (s : State) : Res :=
  match clientEp s e with
  | none => .next (raiseFault s .f2)
  | some i => .next (clearStallEp s i)

/-- setCallback (R240). -/
def execSetCallback (e : BitVec 8) (id : Nat) (s : State) : Res :=
  match clientEp s e with
  | none => .next (raiseFault s .f2)
  | some i => .next (setCb s i (some (.client id)))

/-- The SERIAL_STATE notification, 10 bytes (R123, R418). -/
def notificationBytes (c : Params) (state : BitVec 16) : List Byte :=
  [0xA1, 0x20, 0x00, 0x00, c.ifCdcComm, 0x00, 0x02, 0x00, lo8 state, hi8 state]

/-- notify, on the notification endpoint; with none in the map it is no client endpoint, F2 (R418, R443;
log 36). -/
def execNotify (state : BitVec 16) (s : State) : Res :=
  match epNotify s.cfg with
  | none => .next (raiseFault s .f2)
  | some e =>
    let x := s.ep.get e
    if x.enabled = false then .next (raiseFault s .f2)
    else if x.phase ≠ .idle then .next (raiseFault s .f1)
    else
      andThen (store s (bufAddr s.cfg e .tx x.odd.tx) (notificationBytes s.cfg state)) fun s =>
        execStartTx (BitVec.ofNat 8 e.num) 10 0 s

/-- The checks of a start on the endpoint of a role: with none in the map it is no client endpoint, F2 (R233,
R244; log 36). -/
def roleCheck (s : State) (e : Option EpId) (d : Dir) (len : BitVec 16) (buf : Addr) :
    Except FaultReason EpId :=
  match e with
  | none => .error .f2
  | some i => startCheck s (BitVec.ofNat 8 i.num) d len buf

/-- sendData: startTx on the bulk IN endpoint, then wait; on a fault it returns at once (R244). -/
def execSendData (buf : BitVec 32) (len : BitVec 16) (s : State) : Res :=
  match roleCheck s (epBulkIn s.cfg) .tx len buf with
  | .error r => .next (raiseFault s r)
  | .ok i =>
    if clientBufOk s .tx buf len then
      let s := beginTx s i len (transferAddr s i .tx buf)
      .next { s with client := { s.client with sendWait := true } }
    else .refused .clientBuffer

/-- receiveData: startRx on the bulk OUT endpoint, then wait; on a fault it returns 0 at once (R244). -/
def execReceiveData (buf : BitVec 32) (maxLen : BitVec 16) (s : State) : Res :=
  match roleCheck s (epBulkOut s.cfg) .rx maxLen buf with
  | .error r =>
    let s := raiseFault s r
    .next { s with client := { s.client with recvRet := 0 } }
  | .ok i =>
    if clientBufOk s .rx buf maxLen then
      let s := beginRx s i maxLen (transferAddr s i .rx buf)
      .next { s with client := { s.client with recvWait := true } }
    else .refused .clientBuffer

/-- isConfigured: returns `dev.conn = Configured` (R244). -/
def execIsConfigured (s : State) : Res :=
  .next { s with client := { s.client with confRet := inConf s } }

/-- What a wait on an endpoint waits for: `enabled = 0` or `phase = Idle` (R244). On no endpoint nothing waits. -/
def waitOver (s : State) (e : Option EpId) : Bool :=
  e.all fun i => !(s.ep.get i).enabled || (s.ep.get i).phase == .idle

/-- A blocking call waits (R244). -/
def clientWaits (s : State) : Bool := s.client.sendWait || s.client.recvWait

/-- A line that is no enabled step: while a blocking call waits the client takes no step, but that clearStall
may come from another context (R135, R244, R452, R497; log 12). -/
def lineHeld (s : State) (l : Line) : Bool :=
  match l with
  | .client word => clientWaits s && match decode .cmd word with
    | .ok (.clearStall _) => false
    | _ => true
  | .memWrite _ _ => clientWaits s
  | .init | .hReset | .hSetup _ _ _ | .hOut _ _ _ _ | .hIn _ _ _ | .hSof _ | .hIdle | .hResume | .hError _
  | .dispatch _ | .backend _ => false

/-- A waiting sendData returns once its wait is over. -/
def wakeSend (s : State) : State :=
  if s.client.sendWait && waitOver s (epBulkIn s.cfg) then
    { s with client := { s.client with sendWait := false } }
  else s

/-- A waiting receiveData returns `xferred` once its wait is over. -/
def wakeRecv (s : State) : State :=
  if s.client.recvWait && waitOver s (epBulkOut s.cfg) then
    { s with client := { s.client with
        recvWait := false, recvRet := ((epBulkOut s.cfg).map fun i => (s.ep.get i).xferred).getD 0 } }
  else s

/-- The waiting calls re-check their condition; R452 admits this after any other agent's step (log 12). -/
def wakeClient (s : State) : State := wakeRecv (wakeSend s)

end Sys2Proof.Machine
end

