-- ==== Sys2Proof/Machine/Dispatch.lean ====
section
/-! DEFINITION. One arm per operation of the opcode table, each a direct call of its meaning. -/

namespace Sys2Proof.Machine

def exec (i : Instr) (s : State) : Host.Outcome State Fault Refusal :=
  match i with
  -- standard requests (R116)
  | .getStatusDevice v x l => Sys2Proof.Machine.execGetStatusDevice v x l s
  | .getStatusInterface v x l => Sys2Proof.Machine.execGetStatusInterface v x l s
  | .getStatusEndpoint v x l => Sys2Proof.Machine.execGetStatusEndpoint v x l s
  | .clearFeatureDevice v x l => Sys2Proof.Machine.execClearFeatureDevice v x l s
  | .clearFeatureInterface v x l => Sys2Proof.Machine.execClearFeatureInterface v x l s
  | .clearFeatureEndpoint v x l => Sys2Proof.Machine.execClearFeatureEndpoint v x l s
  | .setFeatureDevice v x l => Sys2Proof.Machine.execSetFeatureDevice v x l s
  | .setFeatureInterface v x l => Sys2Proof.Machine.execSetFeatureInterface v x l s
  | .setFeatureEndpoint v x l => Sys2Proof.Machine.execSetFeatureEndpoint v x l s
  | .setAddress v x l => Sys2Proof.Machine.execSetAddress v x l s
  | .getDescriptorDevice d x l => Sys2Proof.Machine.execGetDescriptorDevice d x l s
  | .getDescriptorConfiguration d x l => Sys2Proof.Machine.execGetDescriptorConfiguration d x l s
  | .getDescriptorString d x l => Sys2Proof.Machine.execGetDescriptorString d x l s
  | .getDescriptorOther t d x l => Sys2Proof.Machine.execGetDescriptorOther t d x l s
  | .setDescriptor v x l => Sys2Proof.Machine.execSetDescriptor v x l s
  | .getConfiguration v x l => Sys2Proof.Machine.execGetConfiguration v x l s
  | .setConfiguration v x l => Sys2Proof.Machine.execSetConfiguration v x l s
  | .getInterface v x l => Sys2Proof.Machine.execGetInterface v x l s
  | .setInterface v x l => Sys2Proof.Machine.execSetInterface v x l s
  | .synchFrame v x l => Sys2Proof.Machine.execSynchFrame v x l s
  | .stdUnmatched bm r v x l => Sys2Proof.Machine.execStdUnmatched bm r v x l s
  -- CDC-ACM class requests and the fallback rows (R120, R137)
  | .cdcSetLineCoding v x l => Sys2Proof.Machine.execCdcSetLineCoding v x l s
  | .cdcGetLineCoding v x l => Sys2Proof.Machine.execCdcGetLineCoding v x l s
  | .cdcSetControlLineState v x l => Sys2Proof.Machine.execCdcSetControlLineState v x l s
  | .cdcSendBreak v x l => Sys2Proof.Machine.execCdcSendBreak v x l s
  | .classUnmatched bm r v x l => Sys2Proof.Machine.execClassUnmatched bm r v x l s
  | .vendorRequest bm r v x l => Sys2Proof.Machine.execVendorRequest bm r v x l s
  | .reservedType bm r v x l => Sys2Proof.Machine.execReservedType bm r v x l s
  -- token completions (R138)
  | .tokSetupEp0 k => Sys2Proof.Machine.execTokSetupEp0 k s
  | .tokOutEp0 k => Sys2Proof.Machine.execTokOutEp0 k s
  | .tokInEp0 k => Sys2Proof.Machine.execTokInEp0 k s
  | .tokOutEpn ep k => Sys2Proof.Machine.execTokOutEpn ep k s
  | .tokInEpn ep k => Sys2Proof.Machine.execTokInEpn ep k s
  | .tokSetupEpn ep k => Sys2Proof.Machine.execTokSetupEpn ep k s
  -- bus events (R139); `genuine` is the debounce verdict of R374
  | .evUsbrst => Sys2Proof.Machine.execEvUsbrst s
  | .evError => Sys2Proof.Machine.execEvError s
  | .evSoftok => Sys2Proof.Machine.execEvSoftok s
  | .evTokdne => Sys2Proof.Machine.execEvTokdne s
  | .evSleep => Sys2Proof.Machine.execEvSleep s
  | .evResume g => Sys2Proof.Machine.execEvResume g s
  | .evStall => Sys2Proof.Machine.execEvStall s
  -- client commands (R133)
  | .startTx e len buf => Sys2Proof.Machine.execStartTx e len buf s
  | .startRx e len buf => Sys2Proof.Machine.execStartRx e len buf s
  | .stall e => Sys2Proof.Machine.execStall e s
  | .clearStall e => Sys2Proof.Machine.execClearStall e s
  | .setCallback e id => Sys2Proof.Machine.execSetCallback e id s
  | .notify st => Sys2Proof.Machine.execNotify st s
  | .sendData buf len => Sys2Proof.Machine.execSendData buf len s
  | .receiveData buf n => Sys2Proof.Machine.execReceiveData buf n s
  | .isConfigured => Sys2Proof.Machine.execIsConfigured s

end Sys2Proof.Machine
end

