-- ==== Sys2Proof/Machine/Sie.lean ====
section
/-! DEFINITION. The SIE (40_bus_interface.md): the token filter, the SETUP, OUT and IN transactions, and
the bus signals. Each is one atomic step, and its answer to the host is `sie.answer` (R136; log 13). -/

namespace Sys2Proof.Machine

/-- The state with the SIE's answer to the host transaction (R136). -/
def answer (s : State) (a : Answer) : State := setSie s { s.sie with answer := a }

/-- The endpoint a token reaches: the address is the device's, endpoint activity is on, and the endpoint is
one of the map and enabled (R161(a)-(c)). -/
def tokenTo (s : State) (a : BitVec 7) (e : BitVec 4) : Option EpId :=
  if a ≠ s.dev.addr then none
  else if s.dev.epActive = false then none
  else match endpointOf s.cfg e.toNat with
    | none => none
    | some i => if (s.ep.get i).enabled then some i else none

/-- The token queue is full (R166). -/
def queueFull (s : State) : Bool := decide (s.cfg.tokqDepth ≤ s.sie.tokq.length)

/-- The SIE completes no OUT or IN transaction on a slot: tokens suspended, slot not owned, or the queue
full (R163, R164). -/
def mustNak (s : State) (x : Slot) : Bool := s.sie.tokenSuspended || !x.own || queueFull s

/-- A packet longer than the slot: arbitrary bytes up to `bc`, non-zero error bits, `istat.ERROR`; the slot
stays owned (R162, R163; log 10). -/
def overrun (s : State) (x : Slot) : Res :=
  andThen (store s x.addr (freeBytes s.draws x.bc.toNat)) fun t =>
    let d := raiseBits bitError { t.dev with errstat := t.dev.errstat ||| freeErrBits s.draws }
    .next (answer { setDev t d with draws := s.draws + x.bc.toNat + 1 } .error)

/-- The completion of a transaction on slot (e, d, k), `x` being the slot with what the SIE wrote:
ownership back to the block, pointer flipped, completion queued (R165). -/
def complete (s : State) (e : EpId) (d : Dir) (k : Bool) (x : Slot) : State :=
  let s := setSlot s e d k { x with own := false }
  setSie s { s.sie with
    odd := s.sie.odd.set e ((s.sie.odd.get e).set d (!k))
    tokq := s.sie.tokq ++ [⟨BitVec.ofNat 4 e.num, d, k⟩] }

/-- STALL handshake (R163, R164, R172). -/
def sieStall (s : State) : State := answer (setDev s (raiseBits bitStall s.dev)) .stall

/-- `H.SETUP a e b0 …` (R161, R162). -/
def hostSetup (a : BitVec 7) (e : BitVec 4) (data : List Byte) (s : State) : Res :=
  if tokenTo s a e ≠ some .ep0 then .next (answer s .none)
  else if s.sie.tokenSuspended || queueFull s then .next (answer s .none)
  else
    let k := s.sie.odd.ep0.rx
    let x := slot s .ep0 .rx k
    if x.own = false then .next (answer s .none)
    else if x.bc.toNat < data.length then overrun s x
    else
      andThen (store s x.addr data) fun t =>
        let t := complete t .ep0 .rx k
          { x with bc := BitVec.ofNat 10 data.length, pid := pidSetup, data01 := false }
        .next (answer (setSie t { t.sie with tokenSuspended := true }) .ack)

/-- The OUT transaction on endpoint `i` (R163). -/
def sieOut (i : EpId) (p : Bool) (data : List Byte) (s : State) : Res :=
  let k := (s.sie.odd.get i).rx
  let x := slot s i .rx k
  if x.stall then .next (sieStall s)
  else if mustNak s x then .next (answer s .nak)
  else if x.bc.toNat < data.length then overrun s x
  else if p ≠ x.data01 then .next (answer s .ack)
  else
    andThen (store s x.addr data) fun t =>
      .next (answer (complete t i .rx k
        { x with bc := BitVec.ofNat 10 data.length, pid := pidOut }) .ack)

/-- `H.OUT a e P b0 …` (R161, R163). -/
def hostOut (a : BitVec 7) (e : BitVec 4) (p : Bool) (data : List Byte) (s : State) : Res :=
  match tokenTo s a e with
  | none => .next (answer s .none)
  | some i => if hasDir s.cfg i .rx then sieOut i p data s else .next (answer s .none)

/-- The IN transaction on endpoint `i` (R164). -/
def sieIn (i : EpId) (ack : Bool) (s : State) : Res :=
  let k := (s.sie.odd.get i).tx
  let x := slot s i .tx k
  if x.stall then .next (sieStall s)
  else if mustNak s x then .next (answer s .nak)
  else
    andThen (load s x.addr x.bc.toNat) fun b =>
      let t := answer s (.data x.data01 b)
      .next (if ack then complete t i .tx k { x with pid := pidIn } else t)

/-- `H.IN a e ACK|NOACK` (R161, R164). -/
def hostIn (a : BitVec 7) (e : BitVec 4) (ack : Bool) (s : State) : Res :=
  match tokenTo s a e with
  | none => .next (answer s .none)
  | some i => if hasDir s.cfg i .tx then sieIn i ack s else .next (answer s .none)

/-- `H.RESET` (R167). -/
def hostReset (s : State) : Res := .next (setDev s (raiseBits bitUsbrst s.dev))

/-- `H.SOF f` (R168). -/
def hostSof (f : Nat) (s : State) : Res :=
  .next (setDev s (raiseBits bitSoftok { s.dev with frame := BitVec.ofNat 11 f }))

/-- `H.IDLE` (R169). -/
def hostIdle (s : State) : Res := .next (setDev s (raiseBits bitSleep s.dev))

/-- `H.RESUME` (R170). -/
def hostResume (s : State) : Res := .next (setDev s (raiseBits bitResume s.dev))

/-- `H.ERROR x`, x non-zero (R171; log 25). -/
def hostError (x : Byte) (s : State) : Res :=
  if x = 0 then .refused .malformedLine
  else .next (setDev s (raiseBits bitError { s.dev with errstat := s.dev.errstat ||| x }))

end Sys2Proof.Machine
end

