-- ==== Sys2Proof/Machine/Run.lean ====
section
/-! DEFINITION. A run's lines put into effect (R5, R135), the dispatcher step (R370, R371), and how a word of
the opcode table is placed where the next step takes it (log 6). -/

namespace Sys2Proof.Machine

/-! ## One step of one agent -/

/-- One dispatcher step: the event of highest priority among the pending, enabled ones is serviced. With
none pending the step is not enabled, and nothing changes (R370; log 22). -/
def runDispatch (genuine : Bool) (s : State) : Res :=
  match decodeEvent (pending s) genuine with
  | some i => exec i s
  | none => .next s

/-- One client command, by its command word (R133; log 4, log 26). -/
def runClient (word : List Byte) (s : State) : Res :=
  match decode .cmd word with
  | .ok i => exec i s
  | .error _ => .refused .commandWord

/-- `BK.LINESTATE v`: the backend's line state, then `notify(v)` (R419). -/
def runBackend (v : BitVec 16) (s : State) : Res :=
  exec (.notify v) { s with backend := { s.backend with lineState := v } }

/-- The step a line stands for (R135). -/
def runLine (l : Line) (s : State) : Res :=
  match l with
  | .init => .next (powerOnAgain s)
  | .hReset => hostReset s
  | .hSetup a e data => hostSetup a e data s
  | .hOut a e p data => hostOut a e p data s
  | .hIn a e ack => hostIn a e ack s
  | .hSof f => hostSof f s
  | .hIdle => hostIdle s
  | .hResume => hostResume s
  | .hError x => hostError x s
  | .dispatch genuine => runDispatch genuine s
  | .client word => runClient word s
  | .backend v => runBackend v s
  | .memWrite a data => store s a data

/-- The first line that is not held, and the others in their order (R135; log 1, log 12). -/
def takeLine (s : State) : List Line → Option (Line × List Line)
  | [] => none
  | l :: r =>
    if lineHeld s l then (takeLine s r).map fun p => (p.1, l :: p.2) else some (l, r)

/-- The line whose step comes next, if one does. -/
def nextLine (s : State) : Option Line := (takeLine s s.lines).map Prod.fst

/-- The next line's step; with none, a dispatcher step if the interrupt is requested, its debounce verdict a
free value, else nothing (R175, R370; log 2, log 11). -/
def runNext (s : State) : Res :=
  match takeLine s s.lines with
  | some (l, rest) => runLine l { s with lines := rest }
  | none =>
    if irq s then runDispatch (Config.freeGenuine s.draws) { s with draws := s.draws + 1 }
    else .next s

/-- A step of the machine: no run starts in a configuration that fails a build check (R446); the client's
waits re-check their condition after every step (R244, R452; log 12). -/
def runStep (s : State) : Res :=
  if buildOk s.cfg then andThen (runNext s) fun t => .next (wakeClient t)
  else .refused .configuration

/-! ## Placing a word of the opcode table (log 6) -/

/-- TOKDNE enabled and nothing of higher priority pending, with one completion queued, and a dispatcher
step as the next line. -/
def queueOnly (s : State) (c : Completion) : State :=
  let s := setDev s (enableBits bitTokdne (clearBits bitUsbrst s.dev))
  let s := setSie s { s.sie with tokq := [c] }
  { s with lines := .dispatch true :: s.lines }

/-- A SETUP packet in the EP0 RX buffer the block's selector names, its slot completed. -/
def placeSetup (s : State) (packet : List Byte) : State :=
  let k := s.ep.ep0.odd.rx
  let s := setEp s .ep0 { s.ep.ep0 with enabled := true }
  let s := setSlot s .ep0 .rx k { slot s .ep0 .rx k with own := false, bc := 8, pid := pidSetup }
  queueOnly { s with mem := pokes s.cfg s.mem (bufAddr s.cfg .ep0 .rx k).toNat packet } ⟨0, .rx, k⟩

/-- A completion of a word's PID, endpoint, direction and half. -/
def placeCompletion (s : State) (cw : BitVec 12) : State :=
  let d : Dir := if cw.getLsbD 3 then .tx else .rx
  let k := cw.getLsbD 2
  let c : Completion := ⟨cw.extractLsb' 4 4, d, k⟩
  match endpointOf s.cfg c.ep.toNat with
  | none => queueOnly s c
  | some e => queueOnly (setSlot s e d k { slot s e d k with pid := cw.extractLsb' 8 4 }) c

/-- An event bit, pending and enabled, alone. -/
def placeEvent (s : State) (m : BitVec 8) : State :=
  let s := setDev s (enableBits m { s.dev with istat := m })
  let s := if m = bitTokdne then s else setSie s { s.sie with tokq := [] }
  { s with lines := .dispatch true :: s.lines }

/-- A client command as the next line. A wait that would hold it is taken out (R452). -/
def placeCmd (s : State) (word : List Byte) : State :=
  let s := if lineHeld s (.client word) then
      { s with client := { s.client with sendWait := false, recvWait := false } }
    else s
  { s with lines := .client word :: s.lines }

/-- The word `w` of `nbits` bits, numbered as the opcode table numbers it, placed where the next step
takes it. -/
def placeWord (s : State) (nbits w : Nat) : State :=
  let v := w % 2 ^ nbits
  match tableWordFormat nbits v with
  | .setup => placeSetup s (tableWordBytes nbits v)
  | .completion => placeCompletion s (BitVec.ofNat 12 v)
  | .event => placeEvent s (BitVec.ofNat 8 v)
  | .cmd => placeCmd s (tableWordBytes nbits v)

end Sys2Proof.Machine
end

