-- ==== Sys2Proof/Machine/Step.lean ====
section
/-! DEFINITION. One step of the machine, and a word placed for the next step (Machine/Run.lean). -/

namespace Sys2Proof.Machine

/-- One step of one agent (R5, R135). -/
def step (s : State) : Host.Outcome State Fault Refusal := runStep s

/-- The state in which the very next step runs the word of the opcode table (log 6). -/
def State.withFetchWord (s : State) (nbits w : Nat) : State := placeWord s nbits w

end Sys2Proof.Machine
end

