-- ==== Sys2Proof/Safety.lean ====
section
/-! DEFINITION. The terms statements are made in: what a step keeps, the states the rules describe written out
as plain records (not through the operations of Machine/), and the invariants of 10_state.md. -/

namespace Sys2Proof.Machine

/-! ## Memory -/

/-- Every byte reads as before. -/
def MemSame (s t : State) : Prop := ∀ x, peek t x = peek s x

/-- The bytes `bs` stand from address `a` on, and every other byte reads as before. -/
def StoredAt (s t : State) (a : Addr) (bs : List Byte) : Prop :=
  ∀ x, peek t x =
    if a.toNat ≤ x ∧ x < a.toNat + bs.length then bs[x - a.toNat]?.getD 0 else peek s x

/-- `t` is `u` except for memory, where exactly `bs` was stored at `a` over the memory of `s`. -/
def IsButStored (s u t : State) (a : Addr) (bs : List Byte) : Prop :=
  { t with mem := u.mem } = u ∧ StoredAt s t a bs

/-- Whether a range lies in the space and meets no ROM range. -/
abbrev Writable (c : Params) (a n : Nat) : Prop :=
  a + n ≤ 2 ^ 32 ∧ ((romRegions c).any fun r => meets r a n) = false

/-- Whether an address lies in a range. -/
abbrev InRange (a base n : Nat) : Prop := base ≤ a ∧ a < base + n

/-! ## Endpoint 0 after a request, as plain records -/

/-- The EP0 RX slot the selector names, armed at its internal buffer (R232 `armEp0Rx`). -/
def armedEp0Rx (s : State) (x : EndpointState) (p : HalfPair Slot) : HalfPair Slot :=
  p.set x.odd.rx
    ⟨true, x.toggle.rx, false, BitVec.ofNat 10 s.cfg.ep0Mps, bufAddr s.cfg .ep0 .rx x.odd.rx,
     (p.get x.odd.rx).pid⟩

/-- EP0 with record `x`, one TX slot armed with `n` bytes at `a`, and the RX slot armed; a slot the SIE owned
already is flagged (R490). -/
def ep0Armed (s : State) (x : EndpointState) (a : Addr) (n : Nat) : State :=
  { s with
    ownedWrite := s.ownedWrite || (s.bdt.ep0.tx.get x.odd.tx).own || (s.bdt.ep0.rx.get x.odd.rx).own
    ep := { s.ep with ep0 := x }
    bdt := { s.bdt with ep0 :=
      ⟨armedEp0Rx s x s.bdt.ep0.rx,
       s.bdt.ep0.tx.set x.odd.tx
         ⟨true, x.toggle.tx, false, BitVec.ofNat 10 n, a, (s.bdt.ep0.tx.get x.odd.tx).pid⟩⟩ } }

/-- EP0 with record `x` and only the RX slot armed, flagged if the SIE owned it (R490). -/
def ep0RxArmed (s : State) (x : EndpointState) : State :=
  { s with
    ownedWrite := s.ownedWrite || (s.bdt.ep0.rx.get x.odd.rx).own
    ep := { s.ep with ep0 := x }
    bdt := { s.bdt with ep0 := { s.bdt.ep0 with rx := armedEp0Rx s x s.bdt.ep0.rx } } }

/-- Tokens released (R173 `sieReleaseTokens`). -/
def tokensFree (s : State) : State := { s with sie := { s.sie with tokenSuspended := false } }

/-- The IN data stage of `n` bytes from address `a` (R274, R233, R231). -/
def dataInStage (s : State) (a : Addr) (n : Nat) (cb : Option Callback) : State :=
  ep0Armed s
    { s.ep.ep0 with
      ptr := a, remaining := BitVec.ofNat 16 n, xferred := 0, callback := cb
      phase := if n < s.cfg.ep0Mps then .lastIn else .dataIn }
    a (min n s.cfg.ep0Mps)

/-- The OUT data stage of `n` bytes to address `a` (R275). -/
def dataOutStage (s : State) (a : Addr) (n : BitVec 16) (cb : Option Callback) : State :=
  ep0RxArmed s
    { s.ep.ep0 with ptr := a, remaining := n, xferred := 0, callback := cb, phase := .dataOut }

/-- The status stage of a request with no data stage (R276). -/
def noDataStage (s : State) (cb : Option Callback) : State :=
  ep0Armed s { s.ep.ep0 with callback := cb, phase := .statusIn }
    (bufAddr s.cfg .ep0 .tx s.ep.ep0.odd.tx) 0

/-- A slot the block takes back with its stall bit set. -/
def haltedSlot (x : Slot) : Slot := { x with own := false, stall := true }

/-- A protocol error of a cause: the log entry, EP0 in Stall, its TX pointer and selector at 0 with the
queued TX completions gone, toggles DATA0, the TX slots halted, the RX slot armed with its stall bit
(R442, R238, R173). -/
def ep0Stalled (s : State) (c : StallCause) : State :=
  { s with
    out := s.out ++ [.log (.requestError c)]
    ep := { s.ep with ep0 := { s.ep.ep0 with
      phase := .stall, callback := none, toggle := ⟨false, false⟩, odd := ⟨s.ep.ep0.odd.rx, false⟩ } }
    bdt := { s.bdt with ep0 :=
      ⟨HalfPair.set ⟨haltedSlot s.bdt.ep0.rx.even, haltedSlot s.bdt.ep0.rx.odd⟩ s.ep.ep0.odd.rx
         ⟨true, false, true, BitVec.ofNat 10 s.cfg.ep0Mps, bufAddr s.cfg .ep0 .rx s.ep.ep0.odd.rx,
          (s.bdt.ep0.rx.get s.ep.ep0.odd.rx).pid⟩,
       ⟨haltedSlot s.bdt.ep0.tx.even, haltedSlot s.bdt.ep0.tx.odd⟩⟩ }
    sie := { s.sie with
      odd := { s.sie.odd with ep0 := ⟨s.sie.odd.ep0.rx, false⟩ }
      tokq := s.sie.tokq.filter fun q => !(q.ep.toNat == 0 && q.dir == .tx) } }

/-- A request that ends in `Stall(c)`: the stall, and the tokens released (R272, R277). -/
def stalledRequest (s : State) (c : StallCause) : State := tokensFree (ep0Stalled s c)

/-- EP0 after the SETUP handler's copy and resynchronisation, before the request runs (R272): every EP0
slot taken back, RX selector flipped, callback gone, toggles DATA1, phase Idle, counts 0. -/
def setupResynced (s : State) (p : Setup) : State :=
  let back := fun x : Slot => { x with own := false, stall := false }
  { s with
    setup := p
    ep := { s.ep with ep0 := { s.ep.ep0 with
      odd := ⟨!s.ep.ep0.odd.rx, s.ep.ep0.odd.tx⟩, callback := none, toggle := ⟨true, true⟩
      phase := .idle, remaining := 0, xferred := 0 } }
    bdt := { s.bdt with ep0 :=
      ⟨⟨back s.bdt.ep0.rx.even, back s.bdt.ep0.rx.odd⟩, ⟨back s.bdt.ep0.tx.even, back s.bdt.ep0.tx.odd⟩⟩ } }

/-- The setup packet in the 8 bytes at an address (R111). -/
def setupAt (s : State) (a : Nat) : Setup :=
  Setup.ofBytes (peek s a) (peek s (a + 1)) (peek s (a + 2)) (peek s (a + 3))
    (peek s (a + 4)) (peek s (a + 5)) (peek s (a + 6)) (peek s (a + 7))

/-! ## The other endpoints -/

/-- The token queue without the completions of an endpoint (R173). -/
def purged (s : State) (e : EpId) : List Completion :=
  s.sie.tokq.filter fun q => !(q.ep.toNat == e.num)

/-- Endpoint `e` ≠ 0 with record `x`, slots `p`, its SIE pointers at 0 and its completions gone. -/
def epReinit (s : State) (e : EpId) (x : EndpointState) (p : DirPair (HalfPair Slot)) : State :=
  { s with
    ep := s.ep.set e x
    bdt := s.bdt.set e p
    sie := { s.sie with odd := s.sie.odd.set e ⟨false, false⟩, tokq := purged s e } }

/-- `stallEp(e)` and `clearStallEp(e)`, e ≠ 0, by the stall bit and the phase they leave (R238, R239). -/
def epHalted (s : State) (e : EpId) (st : Bool) (p : Phase) : State :=
  let d := dirOf s.cfg e
  let q := (s.bdt.get e).get d
  let back := fun x : Slot => { x with own := false, stall := st }
  epReinit s e
    { s.ep.get e with
      callback := none, odd := ⟨false, false⟩, toggle := (s.ep.get e).toggle.set d false, phase := p }
    ((s.bdt.get e).set d ⟨back q.even, back q.odd⟩)

/-- An endpoint other than EP0 torn down or built: Idle, cursor 0, selectors 0, toggles DATA0, no callback,
`xferred` kept (R330). -/
def epRebuilt (x : EndpointState) (enabled : Bool) : EndpointState :=
  ⟨.idle, enabled, ⟨false, false⟩, ⟨false, false⟩, 0, 0, x.xferred, none⟩

/-- The slots of an endpoint torn down or built: not owned, no stall bit (R330). -/
def slotsFreed (p : DirPair (HalfPair Slot)) : DirPair (HalfPair Slot) :=
  let back := fun x : Slot => { x with own := false, stall := false }
  ⟨⟨back p.rx.even, back p.rx.odd⟩, ⟨back p.tx.even, back p.tx.odd⟩⟩

/-- One of the endpoints 1 … NUM_EP−1 (R6, R329). -/
abbrev Other (c : Params) (e : EpId) : Prop := e ≠ .ep0 ∧ e.num < c.numEp

/-- Every endpoint other than EP0 torn down (`enabled` false) or built (R329, R330). -/
def allRebuilt (s : State) (enabled : Bool) : State :=
  { s with
    ep := EpBank.tabulate fun e =>
      if Other s.cfg e then epRebuilt (s.ep.get e) enabled else s.ep.get e
    bdt := EpBank.tabulate fun e =>
      if Other s.cfg e then slotsFreed (s.bdt.get e) else s.bdt.get e
    sie := { s.sie with
      odd := EpBank.tabulate fun e => if Other s.cfg e then ⟨false, false⟩ else s.sie.odd.get e
      tokq := s.sie.tokq.filter fun q =>
        !(decide (1 ≤ q.ep.toNat) && decide (q.ep.toNat < s.cfg.numEp)) } }

/-- Slot (e, d, selector of x) armed with the next packet of the transfer of record `x` (R231, R232), flagged if
the SIE owned it (R490). -/
def packetArmed (s : State) (e : EpId) (d : Dir) (x : EndpointState) : State :=
  let k := x.odd.get d
  { s with
    ownedWrite := s.ownedWrite || (((s.bdt.get e).get d).get k).own
    ep := s.ep.set e x
    bdt := s.bdt.set e ((s.bdt.get e).set d (((s.bdt.get e).get d).set k
      ⟨true, x.toggle.get d, false, BitVec.ofNat 10 (min x.remaining.toNat (mps s.cfg e)), x.ptr,
       (((s.bdt.get e).get d).get k).pid⟩)) }

/-- The phase an armed IN packet of `n` bytes leaves (R231). -/
def inPhase (c : Params) (e : EpId) (n : Nat) : Phase := if n < mps c e then .lastIn else .dataIn

/-- The record of an endpoint at the start of a transfer (R233, R234). -/
def transferStart (x : EndpointState) (a : Addr) (len : BitVec 16) (p : Phase) : EndpointState :=
  { x with ptr := a, remaining := len, xferred := 0, phase := p }

/-- The record of an endpoint after a completed packet of `n` bytes in direction `d` (R235, R236). -/
def packetDone (x : EndpointState) (d : Dir) (n : BitVec 10) (p : Phase) : EndpointState :=
  { x with
    odd := x.odd.set d (!x.odd.get d), toggle := x.toggle.set d (!x.toggle.get d)
    ptr := x.ptr + n.setWidth 32, remaining := x.remaining - n.setWidth 16
    xferred := x.xferred + n.setWidth 16, phase := p }

/-- The state once the callback `cb` of endpoint `e` has run, by the rule of its kind (R237, R322, R413). -/
def callbackRan (s : State) (e : EpId) (cb : Option Callback) : State :=
  match cb with
  | none => s
  | some .commitAddress =>
    { s with dev := { s.dev with
        addr := s.dev.pendingAddr
        conn := if s.dev.conn = .default ∧ s.dev.pendingAddr ≠ 0 then .addressed
          else if s.dev.conn = .addressed ∧ s.dev.pendingAddr = 0 then .default
          else s.dev.conn } }
  | some .applyLineCoding =>
    if s.ep.ep0.xferred = 7 then
      let b := lineCodingOf (peeks s s.cfg.lcAddr.toNat 7)
      { s with
        out := s.out ++ [.backendSetLineCoding b]
        backend := { s.backend with
          lc := backendApply s.cfg b } }
    else s
  | some (.client id) => { s with out := s.out ++ [.completed e id (s.ep.get e).xferred] }
  | some (.vendor id) => { s with out := s.out ++ [.completed e id (s.ep.get e).xferred] }

/-- A recorded fault: the reason in the sticky set and its log entry, nothing else (R443). -/
def faulted (s : State) (r : FaultReason) : State :=
  { s with fault := addReason s.fault r, out := s.out ++ [.log (.fault r)] }

/-- The endpoint a client command may name: not EP0, on the map, enabled (R233 check 1). -/
abbrev ClientEp (s : State) (e : BitVec 8) (i : EpId) : Prop :=
  e.toNat = i.num ∧ Other s.cfg i ∧ (s.ep.get i).enabled = true

/-- A client buffer R494 (a) and (b) admit: NULL; or in the space and apart from every region of R81, and for an
OUT transfer in RAM and apart from every armed buffer. -/
abbrev BufAdmitted (s : State) (d : Dir) (buf : Addr) (len : BitVec 16) : Prop :=
  buf = 0 ∨ (buf.toNat + len.toNat ≤ 2 ^ 32 ∧
    (∀ r ∈ ramRegions s.cfg ++ descRegions s.cfg, meets r buf.toNat len.toNat = false) ∧
    (d = .rx → (∀ r ∈ s.cfg.rom, meets r buf.toNat len.toNat = false) ∧
      ∀ e g k, (slot s e g k).own = true →
        meets ⟨(slot s e g k).addr.toNat, (slot s e g k).bc.toNat⟩ buf.toNat len.toNat = false))

/-- A transfer of `len` bytes started on endpoint `i`: its cursor set, at the client's buffer or, with NULL, at
the endpoint's own, and its first packet armed (R233, R234). -/
def transferBegun (s : State) (i : EpId) (d : Dir) (buf : Addr) (len : BitVec 16) : State :=
  let x := s.ep.get i
  packetArmed s i d
    (transferStart x (if buf = 0 then bufAddr s.cfg i d (x.odd.get d) else buf) len
      (match d with
        | .tx => inPhase s.cfg i (min len.toNat (mps s.cfg i))
        | .rx => .dataOut))

/-! ## Completions -/

/-- Slot (e, d, k) holds a completed packet of `pid` that the block's selector points at, on an enabled
endpoint: what every completion handler has had checked (R372). -/
abbrev Completed (s : State) (e : EpId) (d : Dir) (k : Bool) (pid : BitVec 4) : Prop :=
  (s.ep.get e).enabled = true ∧ k = (s.ep.get e).odd.get d ∧ (slot s e d k).own = false ∧
    (slot s e d k).pid = pid

/-- EP0 with its RX selector and toggle flipped by an OUT completion (R278). -/
def ep0OutFlipped (s : State) : State :=
  { s with ep := { s.ep with ep0 := { s.ep.ep0 with
      odd := ⟨!s.ep.ep0.odd.rx, s.ep.ep0.odd.tx⟩
      toggle := ⟨!s.ep.ep0.toggle.rx, s.ep.ep0.toggle.tx⟩ } } }

/-- EP0's IN data stage ended early by the host: TX slots taken back, TX pointer and selector at 0, the queued
TX completions gone, no callback, Idle, RX slot armed (R281). -/
def ep0EarlyStatus (s : State) : State :=
  let u := { s with
    bdt := { s.bdt with ep0 := { s.bdt.ep0 with tx :=
      ⟨{ s.bdt.ep0.tx.even with own := false }, { s.bdt.ep0.tx.odd with own := false }⟩ } }
    sie := { s.sie with
      odd := { s.sie.odd with ep0 := ⟨s.sie.odd.ep0.rx, false⟩ }
      tokq := s.sie.tokq.filter fun q => !(q.ep.toNat == 0 && q.dir == .tx) } }
  ep0RxArmed u { s.ep.ep0 with odd := ⟨s.ep.ep0.odd.rx, false⟩, callback := none, phase := .idle }

/-- The record of endpoint `e` replaced by `x` with its callback taken out, then that callback run (R237). -/
def finished (s : State) (e : EpId) (x : EndpointState) : State :=
  callbackRan { s with ep := s.ep.set e { x with callback := none } } e x.callback

/-! ## Host transactions -/

/-- A token for address `a` and endpoint number `e` in direction `d` reaches endpoint `i`: none of the four cases
of R161 holds. -/
abbrev Reaches (s : State) (a : BitVec 7) (e : BitVec 4) (d : Dir) (i : EpId) : Prop :=
  a = s.dev.addr ∧ s.dev.epActive = true ∧ e.toNat = i.num ∧ i.num < s.cfg.numEp ∧
    (s.ep.get i).enabled = true ∧ (i = .ep0 ∨ dirOf s.cfg i = d)

/-- The SIE's answer, and nothing else. -/
def answered (s : State) (a : Answer) : State := { s with sie := { s.sie with answer := a } }

/-- The SIE may complete nothing: a SETUP is pending, or the queue is full (R166). -/
abbrev HeldOff (s : State) : Prop :=
  s.sie.tokenSuspended = true ∨ s.cfg.tokqDepth ≤ s.sie.tokq.length

/-- A completed transaction on slot (e, d, k): the slot is `x`, the SIE's pointer is flipped and the completion is
queued last (R165). -/
def packetQueued (s : State) (e : EpId) (d : Dir) (k : Bool) (x : Slot) (a : Answer) : State :=
  { s with
    bdt := s.bdt.set e ((s.bdt.get e).set d (((s.bdt.get e).get d).set k x))
    sie := { s.sie with
      odd := s.sie.odd.set e ((s.sie.odd.get e).set d (!k))
      tokq := s.sie.tokq ++ [⟨BitVec.ofNat 4 e.num, d, k⟩]
      answer := a } }

/-- A packet longer than slot `x`: some non-zero error bits, `istat.ERROR`, the answer ERROR, and bytes changed in
the slot's buffer only; the slot, the queue and the pointers stay (R162, R163). -/
def Overran (s t : State) (x : Slot) : Prop :=
  ∃ z : BitVec 8, z ≠ 0 ∧
    { t with mem := s.mem, draws := s.draws } =
      { answered s .error with dev := { s.dev with
          errstat := s.dev.errstat ||| z, istat := s.dev.istat ||| 0x02 } } ∧
    ∀ y, ¬ (x.addr.toNat ≤ y ∧ y < x.addr.toNat + x.bc.toNat) → peek t y = peek s y

/-! ## Request checks, as tables -/

/-- Default, Addressed or Configured (R311). -/
abbrev DefAddrConf (s : State) : Prop :=
  s.dev.conn = .default ∨ s.dev.conn = .addressed ∨ s.dev.conn = .configured

/-- The endpoint target of `wIndex`: bits 6:4 zero, the number on the map; EP0 with either direction bit, any
other endpoint only in Configured with its own direction bit (R335, R113). -/
abbrev EpTarget (s : State) (wIndex : BitVec 16) (e : EpId) : Prop :=
  wIndex.toNat / 16 % 8 = 0 ∧ wIndex.toNat % 16 = e.num ∧ e.num < s.cfg.numEp ∧
  (e ≠ .ep0 → s.dev.conn = .configured ∧ (wIndex.toNat / 128 % 2 = 1 ↔ dirOf s.cfg e = .tx))

/-! ## A vendor hook's staging writes -/

/-- What a hook's staging writes leave at byte `i` of the staging buffer, if they write it (R410(b)). -/
def lastWrite (ws : List (Fin 7 × Byte)) (i : Fin 7) : Option Byte :=
  (ws.filter fun w => w.1 == i).getLast?.map Prod.snd

/-! ## Descriptors and strings of a configuration that passes the build checks -/

/-- The UTF-8 bytes of a 16-bit code unit (R207). -/
def utf8Of (u : BitVec 16) : List Byte :=
  let n := u.toNat
  if n < 0x80 then [BitVec.ofNat 8 n]
  else if n < 0x800 then [BitVec.ofNat 8 (0xC0 + n / 64), BitVec.ofNat 8 (0x80 + n % 64)]
  else [BitVec.ofNat 8 (0xE0 + n / 4096), BitVec.ofNat 8 (0x80 + n / 64 % 64), BitVec.ofNat 8 (0x80 + n % 64)]

/-- The two bytes of a code unit, low byte first (R206). -/
def utf16Of (u : BitVec 16) : List Byte := [BitVec.ofNat 8 u.toNat, BitVec.ofNat 8 (u.toNat / 256)]

/-- An index of an interface string, or 0 for none (R204, R205, R212). -/
abbrev NameIndex (c : Params) (i : Nat) : Prop := i = 0 ∨ 4 ≤ i ∧ i < 4 + c.ifNames.length

/-- The descriptors that follow an interface descriptor, up to the next one (R205, R210). -/
def upToInterface (ds : List (List Byte)) : List (List Byte) := ds.takeWhile fun d => fld d 1 != 0x04

/-- The size in bytes a packet size of `EP_MAP` stands for (R6). -/
def packetSize (c : Params) (m : EpMps) : Nat :=
  match m with
  | .ep0Mps => c.ep0Mps
  | .bulkMps => c.bulkMps
  | .intMps => c.intMps
  | .bytes n => n

/-- The map as R6, R7 and R210 have it: EP0 control in both directions with `EP0_MPS` bytes and no interface, every
other endpoint bulk or interrupt in one direction, of an interface, with a packet size of its type (D4, R245). -/
structure MapLegal (c : Params) : Prop where
  /-- An endpoint other than EP0 (R57), at most as many as a 4-bit number has values, one entry each. -/
  count : 2 ≤ c.numEp ∧ c.numEp ≤ 16 ∧ c.epMap.length = c.numEp
  control : ∃ m, c.epMap[0]? = some ⟨.control, .both, m, none⟩ ∧ packetSize c m = c.ep0Mps
  client : ∀ e, 1 ≤ e → e < c.numEp → ∃ t d m i, c.epMap[e]? = some ⟨t, .only d, m, some i⟩ ∧
    (t = .bulk ∧ packetSize c m ∈ [8, 16, 32, 64] ∨ t = .interrupt ∧ 1 ≤ packetSize c m ∧ packetSize c m ≤ 64)

/-- The endpoint of a role: the lowest-numbered one other than EP0 of a type, direction and interface (R6, R7;
log 36). -/
abbrev HasRole (c : Params) (t : EpType) (d : Dir) (i : BitVec 8) (e : EpId) : Prop :=
  let is := fun n => ∃ m, c.epMap[n]? = some ⟨t, .only d, m, some i⟩
  Other c e ∧ is e.num ∧ ∀ n, 1 ≤ n → n < e.num → ¬ is n

/-- A configuration block as R202, R204, R205 and R210-R213 ask for it, by its header `h` and its other descriptors
`ds`. -/
structure ConfigBlock (c : Params) (h : List Byte) (ds : List (List Byte)) : Prop where
  /-- R202: the walk by `bLength` ends at the end of the block. -/
  walk : c.configDesc = (h :: ds).flatten ∧ ∀ d ∈ h :: ds, 2 ≤ d.length ∧ fld d 0 = d.length
  /-- R202: `wTotalLength`. -/
  total : fld h 2 + 256 * fld h 3 = c.configDesc.length
  /-- R204: the header. -/
  header : h.length = 9 ∧ fld h 1 = 0x02 ∧ fld h 4 = c.numIf ∧ fld h 5 = 1 ∧ NameIndex c (fld h 6)
  /-- R211: `bmAttributes`. -/
  attributes : fld h 7 = 0x80 + 0x40 * c.selfPowered.toNat + 0x20 * c.remoteWakeupCapable.toNat
  /-- R205: as many interface descriptors as interfaces. -/
  interfaces : (ds.filter fun d => fld d 1 == 0x04).length = c.numIf
  /-- R205: one for each interface number. -/
  interface : ∀ n, n < c.numIf → ∃ pre d post, ds = pre ++ d :: post ∧ fld d 1 = 0x04 ∧ d.length = 9 ∧
    fld d 2 = n ∧ fld d 3 = 0 ∧ NameIndex c (fld d 8) ∧
    fld d 4 = ((upToInterface post).filter fun x => fld x 1 == 0x05).length
  /-- R210: as many endpoint descriptors as endpoints other than EP0. -/
  endpoints : ((h :: ds).filter fun d => fld d 1 == 0x05).length + 1 = c.numEp
  /-- R210: one for each endpoint of `EP_MAP`, after its interface, with its address, type and packet size. -/
  endpoint : ∀ e t dir m i, 1 ≤ e → e < c.numEp → c.epMap[e]? = some ⟨t, .only dir, m, some i⟩ →
    ∃ pre d post, ds = pre ++ d :: post ∧ fld d 1 = 0x04 ∧ fld d 2 = i.toNat ∧
      ∃ x ∈ upToInterface post, fld x 1 = 0x05 ∧ x.length = 7 ∧
        fld x 2 = e + (if dir = .tx then 0x80 else 0) ∧
        fld x 3 % 4 = (if t = .bulk then 2 else 3) ∧ fld x 4 + 256 * fld x 5 = packetSize c m
  /-- R212: an IAD's string index. -/
  iadName : ∀ d ∈ ds, fld d 1 = 0x0B → NameIndex c (fld d 7)
  /-- R213: the IAD of the CDC function, before the interface descriptor of `IF_CDC_COMM`. -/
  iad : ∃ pre d post, ds = pre ++ d :: post ∧ fld d 1 = 0x0B ∧ d.length = 8 ∧
    fld d 2 = c.ifCdcComm.toNat ∧ fld d 3 = 2 ∧
    ∀ x ∈ pre, ¬ (fld x 1 = 0x04 ∧ fld x 2 = c.ifCdcComm.toNat)
  /-- R213: the four functional descriptors, after the interface descriptor of `IF_CDC_COMM` (log 39). -/
  functional : ∃ pre d post, ds = pre ++ d :: post ∧ fld d 1 = 0x04 ∧ fld d 2 = c.ifCdcComm.toNat ∧
    4 ≤ ((upToInterface post).filter fun x => fld x 1 == 0x24).length

/-! ## Invariants -/

/-- R36 (a)-(d), with what keeps them: `config` is 0 or 1, and an address commit is registered on EP0 only and
only in Default or Addressed. -/
structure DevInv (s : State) : Prop where
  config : s.dev.config = 1 ↔ s.dev.conn = .configured ∨ s.dev.conn = .suspended
  config01 : s.dev.config = 0 ∨ s.dev.config = 1
  default : s.dev.conn = .default → s.dev.addr = 0
  addressed : s.dev.conn = .addressed ∨ s.dev.conn = .configured ∨ s.dev.conn = .suspended →
    s.dev.addr ≠ 0
  active : s.dev.epActive = false ↔ s.dev.conn = .suspended
  commit0 : s.ep.ep0.callback = some .commitAddress →
    s.dev.conn = .default ∨ s.dev.conn = .addressed
  commitN : ∀ e, e ≠ .ep0 → (s.ep.get e).callback ≠ some .commitAddress

/-- R57, and with it each endpoint other than EP0 by itself: those below `NUM_EP` are enabled while configured, a
number of `NUM_EP` or more never. -/
structure EnabledInv (s : State) : Prop where
  each : ∀ e, e ≠ .ep0 → ((s.ep.get e).enabled = true ↔ s.dev.config = 1 ∧ e.num < s.cfg.numEp)
  some : (∃ e, e ≠ .ep0 ∧ (s.ep.get e).enabled = true) ↔ s.dev.config = 1

/-- `q(e, d)`: how many completions of (e, d) are queued (R44(c)). -/
def queued (s : State) (e : EpId) (d : Dir) : Nat :=
  (s.sie.tokq.filter fun c => ofEp c e && c.dir == d).length

/-- The phases of EP0 (R31). -/
def ep0Phases : List Phase := [.idle, .dataIn, .lastIn, .dataOut, .statusIn, .statusOut, .stall]

/-- The phases in which a transfer of direction `d` runs on an endpoint other than EP0 (R31). -/
def transferPhases : Dir → List Phase
  | .rx => [.dataOut]
  | .tx => [.dataIn, .lastIn]

/-- The phases an endpoint can be in (R31). -/
def legalPhases (c : Params) (e : EpId) : List Phase :=
  if e = .ep0 then ep0Phases else .idle :: .stall :: transferPhases (dirOf c e)

/-- The phase is one the endpoint can be in. -/
abbrev LegalPhase (c : Params) (e : EpId) (p : Phase) : Prop := p ∈ legalPhases c e

/-- The phases in which a slot of (e, d) may be owned by the SIE or have a queued completion (R55, R56); EP0's
RX slot may be in every phase. -/
def activePhases (c : Params) (e : EpId) (d : Dir) : List Phase :=
  if e = .ep0 then match d with
    | .rx => ep0Phases
    | .tx => [.dataIn, .lastIn, .statusIn]
  else if dirOf c e = d then transferPhases d
  else []

/-- The phase is one in which (e, d) is served. -/
abbrev ActivePhase (c : Params) (e : EpId) (d : Dir) (p : Phase) : Prop := p ∈ activePhases c e d

/-- The PID of a queued completion's slot goes with its direction and endpoint, and an EP0 OUT is not queued
in Stall (R372 `expected`). -/
abbrev PidExpected (s : State) (e : EpId) (d : Dir) (k : Bool) : Prop :=
  (d = .tx → (slot s e .tx k).pid = pidIn) ∧
  (d = .rx → (slot s e .rx k).pid = pidSetup ∧ e = .ep0 ∨
    (slot s e .rx k).pid = pidOut ∧ (s.ep.get e).phase ≠ .stall)

/-- The slot invariants R44 (a)-(e), with what keeps them: the queue within its depth, the phases of R31, R55
and R56 with their stall pattern, every queued completion an expected one (R372, D53), and a SETUP completion
the last one queued while tokens are suspended (R162). -/
structure SlotInv (s : State) : Prop where
  depth : s.sie.tokq.length ≤ s.cfg.tokqDepth
  ep0On : s.ep.ep0.enabled = true
  legal : ∀ e, LegalPhase s.cfg e (s.ep.get e).phase
  off : ∀ e, (s.ep.get e).enabled = false → (s.ep.get e).phase = .idle
  owned : ∀ e d k, (slot s e d k).own = true → k = (s.ep.get e).odd.get d
  ownedPhase : ∀ e d k, (slot s e d k).own = true → ActivePhase s.cfg e d (s.ep.get e).phase
  single : ∀ e d, queued s e d ≤ 1
  exclusive : ∀ e d k, (slot s e d k).own = true → queued s e d = 0
  pointer : ∀ e d, (s.sie.odd.get e).get d =
    if queued s e d = 0 then (s.ep.get e).odd.get d else !((s.ep.get e).odd.get d)
  stall : ∀ e d k, (slot s e d k).stall = true ↔
    (s.ep.get e).phase = .stall ∧ (e = .ep0 ∨ dirOf s.cfg e = d)
  queue : ∀ c ∈ s.sie.tokq, ∃ e, c.ep.toNat = e.num ∧ e.num < s.cfg.numEp ∧ c.odd = (s.ep.get e).odd.get c.dir ∧
    ActivePhase s.cfg e c.dir (s.ep.get e).phase ∧ PidExpected s e c.dir c.odd
  setupLast : ∀ q c r, s.sie.tokq = q ++ c :: r → c.ep.toNat = 0 → c.dir = .rx →
    (slot s .ep0 .rx c.odd).pid = pidSetup → r = [] ∧ s.sie.tokenSuspended = true

/-- The arming invariants R55, R56 and R58, with what keeps them: before the first bus reset EP0 is Idle and
nothing of it is armed or queued; after it EP0's RX slot is armed at its internal buffer unless a completion of it is
queued; an active endpoint's slot is armed unless its completion is queued; an armed slot of a data phase is at the
cursor; tokens are suspended only while a SETUP is queued. -/
structure ArmInv (s : State) : Prop where
  attached : s.dev.conn = .attached → s.ep.ep0.phase = .idle ∧ s.sie.tokenSuspended = false ∧
    ∀ d, queued s .ep0 d = 0 ∧ ∀ k, (slot s .ep0 d k).own = false
  rx : s.dev.conn ≠ .attached → queued s .ep0 .rx = 0 →
    (slot s .ep0 .rx s.ep.ep0.odd.rx).bc = BitVec.ofNat 10 s.cfg.ep0Mps ∧
    (slot s .ep0 .rx s.ep.ep0.odd.rx).addr = bufAddr s.cfg .ep0 .rx s.ep.ep0.odd.rx
  armed : ∀ e d, ActivePhase s.cfg e d (s.ep.get e).phase → (e = .ep0 → s.dev.conn ≠ .attached) →
    queued s e d = 0 → (slot s e d ((s.ep.get e).odd.get d)).own = true
  cursor : ∀ e d k, (slot s e d k).own = true → (e = .ep0 → d = .tx) →
    ((s.ep.get e).phase = .dataIn ∨ (s.ep.get e).phase = .lastIn ∨ (s.ep.get e).phase = .dataOut) →
    (slot s e d k).addr = (s.ep.get e).ptr ∧
    (slot s e d k).bc = BitVec.ofNat 10 (min (s.ep.get e).remaining.toNat (mps s.cfg e))
  tokens : s.sie.tokenSuspended = true →
    ∃ c ∈ s.sie.tokq, c.ep = 0 ∧ c.dir = .rx ∧ (slot s .ep0 .rx c.odd).pid = pidSetup

/-! ## The run's lines -/

/-- A blocking call of the client waits (R244). -/
abbrev Waits (s : State) : Prop := s.client.sendWait = true ∨ s.client.recvWait = true

/-- A line that is no enabled step: one of the client's, other than clearStall, while a call waits (R244, R452,
R497). -/
abbrev Held (s : State) (l : Line) : Prop :=
  Waits s ∧ ((∃ a data, l = .memWrite a data) ∨
    ∃ word, l = .client word ∧ ∀ e, decode .cmd word ≠ .ok (.clearStall e))

/-- The next step is the dispatcher's: its line comes next, or no line is left that is not held. -/
abbrev DispatchNext (s : State) : Prop := nextLine s = none ∨ ∃ g, nextLine s = some (.dispatch g)

/-! ## Moves of a step -/

/-- The phases EP0 can go to with no SETUP, no bus reset and no INIT (R286). -/
def Ep0Moves : Phase → List Phase
  | .idle => [.idle, .stall]
  | .dataIn => [.dataIn, .lastIn, .idle, .stall]
  | .lastIn => [.lastIn, .statusOut, .idle, .stall]
  | .dataOut => [.dataOut, .statusIn, .stall]
  | .statusIn => [.statusIn, .idle, .stall]
  | .statusOut => [.statusOut, .idle, .stall]
  | .stall => [.stall]
  | .throttle => [.throttle]
  | .complete => [.complete]

/-- A move of the connection state with the writes that go with it (R379). -/
def ConnMove (s t : DeviceState) : Prop :=
  match s.conn, t.conn with
  | .default, .addressed => t.addr = s.pendingAddr ∧ t.addr ≠ 0 ∧ t.config = 0
  | .addressed, .configured => t.config = 1 ∧ t.addr = s.addr
  | .configured, .addressed => t.config = 0 ∧ t.addr = s.addr
  | .configured, .suspended => t.epActive = false ∧ t.inten.getLsbD 5 = true ∧ t.addr = s.addr
  | .suspended, .configured => t.epActive = true ∧ t.inten.getLsbD 5 = false ∧ t.addr = s.addr
  | _, .default => t.addr = 0 ∧ t.config = 0
  | a, b => a = b

/-- The addresses a step may write (R90): the block's own RAM regions, the destination of EP0's OUT data stage, an
armed RX slot's buffer below its byte count, and what the client's own write names. -/
def WritableBy (s : State) (a : Nat) : Prop :=
  (∃ r ∈ ramRegions s.cfg, InRange a r.base r.size) ∨
  (s.ep.ep0.phase = .dataOut ∧ InRange a s.ep.ep0.ptr.toNat s.ep.ep0.remaining.toNat) ∨
  (∃ e k, (slot s e .rx k).own = true ∧
    InRange a (slot s e .rx k).addr.toNat (slot s e .rx k).bc.toNat) ∨
  (∃ b data, nextLine s = some (.memWrite b data) ∧ InRange a b.toNat data.length)

end Sys2Proof.Machine
end

