-- ==== Sys2Proof/Certificates/Slice0/Obligations.lean ====
section
/-! DEFINITION. The statements for the provers. Each formalises rules of spec/ named in its docstring, over the
records of Safety.lean, which are written from the rules and not through the operations of Machine/. Where one says
that memory is unchanged, the scratch buffer is part of it: no rule writes it but a string reply's (R325), and that its
bytes are kept between string replies is the model's choice (log 43). -/

open Sys2Proof Sys2Proof.Machine

/-! ## Requests (44_standard_requests.md, 46_class_cdc.md) -/

/-- GET_STATUS_DEVICE: valid in Default, Addressed and Configured, wLength 2, wValue and wIndex not read; the
reply is the status byte and 0, staged in the EP0 TX buffer (R312, R124). -/
def Obligations.GetStatusDeviceReplies : Prop :=
  ∀ (s : State) (v x l : BitVec 16), buildOk s.cfg = true → memWf s = true →
    let r := exec (.getStatusDevice v x l) s
    let a := bufAddr s.cfg .ep0 .tx s.ep.ep0.odd.tx
    (¬ DefAddrConf s → r = .next (stalledRequest s .s3)) ∧
    (DefAddrConf s → l ≠ 2 → r = .next (stalledRequest s .s4)) ∧
    (DefAddrConf s → l = 2 → ∃ t, r = .next t ∧
      IsButStored s (tokensFree (dataInStage s a 2 none)) t a
        [BitVec.ofNat 8 (s.dev.selfPowered.toNat + 2 * s.dev.remoteWakeup.toNat), 0])

/-- GET_STATUS_INTERFACE and GET_INTERFACE: valid in Configured only, wLength 2 or 1, the interface below
NUM_IF; the reply is all zero (R313, R331, R336). -/
def Obligations.InterfaceStatusAndSettingReplyZero : Prop :=
  ∀ (s : State) (v x l : BitVec 16) (status : Bool), buildOk s.cfg = true → memWf s = true →
    let r := exec (if status then .getStatusInterface v x l else .getInterface v x l) s
    let n : Nat := if status then 2 else 1
    let a := bufAddr s.cfg .ep0 .tx s.ep.ep0.odd.tx
    (s.dev.conn ≠ .configured → r = .next (stalledRequest s .s3)) ∧
    (s.dev.conn = .configured → l.toNat ≠ n → r = .next (stalledRequest s .s4)) ∧
    (s.dev.conn = .configured → l.toNat = n → s.cfg.numIf ≤ x.toNat % 256 → r = .next (stalledRequest s .s6)) ∧
    (s.dev.conn = .configured → l.toNat = n → x.toNat % 256 < s.cfg.numIf → ∃ t, r = .next t ∧
      IsButStored s (tokensFree (dataInStage s a n none)) t a (List.replicate n 0))

/-- GET_STATUS_ENDPOINT: wLength 2, the endpoint target; the reply is the halt bit and 0 (R314, R335). -/
def Obligations.GetStatusEndpointRepliesHalt : Prop :=
  ∀ (s : State) (v x l : BitVec 16), buildOk s.cfg = true → memWf s = true →
    let r := exec (.getStatusEndpoint v x l) s
    let a := bufAddr s.cfg .ep0 .tx s.ep.ep0.odd.tx
    (¬ DefAddrConf s → r = .next (stalledRequest s .s3)) ∧
    (DefAddrConf s → l ≠ 2 → r = .next (stalledRequest s .s4)) ∧
    (DefAddrConf s → l = 2 → (∀ e, ¬ EpTarget s x e) → r = .next (stalledRequest s .s6)) ∧
    (∀ e, DefAddrConf s → l = 2 → EpTarget s x e → ∃ t, r = .next t ∧
      IsButStored s (tokensFree (dataInStage s a 2 none)) t a
        [if (s.ep.get e).phase = .stall then 1 else 0, 0])

/-- SET_FEATURE_DEVICE (`on`) and CLEAR_FEATURE_DEVICE: DEVICE_REMOTE_WAKEUP writes the armed flag if the device
is capable, else S10; TEST_MODE S10; any other selector S5 (R315, R318). -/
def Obligations.DeviceFeatureSetsRemoteWakeup : Prop :=
  ∀ (s : State) (v x l : BitVec 16) (on : Bool),
    let r := exec (if on then .setFeatureDevice v x l else .clearFeatureDevice v x l) s
    (¬ DefAddrConf s → r = .next (stalledRequest s .s3)) ∧
    (DefAddrConf s → l ≠ 0 → r = .next (stalledRequest s .s4)) ∧
    (DefAddrConf s → l = 0 → v = 1 → s.cfg.remoteWakeupCapable = true →
      r = .next (tokensFree (noDataStage { s with dev := { s.dev with remoteWakeup := on } } none))) ∧
    (DefAddrConf s → l = 0 → v = 1 → s.cfg.remoteWakeupCapable = false →
      r = .next (stalledRequest s .s10)) ∧
    (DefAddrConf s → l = 0 → v = 2 → r = .next (stalledRequest s .s10)) ∧
    (DefAddrConf s → l = 0 → v ≠ 1 → v ≠ 2 → r = .next (stalledRequest s .s5))

/-- SET_FEATURE_INTERFACE and CLEAR_FEATURE_INTERFACE: after the state, length and target checks, S10 for
every feature (R316, R319, R336). -/
def Obligations.InterfaceFeatureStalls : Prop :=
  ∀ (s : State) (v x l : BitVec 16) (on : Bool),
    let r := exec (if on then .setFeatureInterface v x l else .clearFeatureInterface v x l) s
    (s.dev.conn ≠ .configured → r = .next (stalledRequest s .s3)) ∧
    (s.dev.conn = .configured → l ≠ 0 → r = .next (stalledRequest s .s4)) ∧
    (s.dev.conn = .configured → l = 0 → s.cfg.numIf ≤ x.toNat % 256 → r = .next (stalledRequest s .s6)) ∧
    (s.dev.conn = .configured → l = 0 → x.toNat % 256 < s.cfg.numIf → r = .next (stalledRequest s .s10))

/-- SET_FEATURE_ENDPOINT (`on`) halts the endpoint, CLEAR_FEATURE_ENDPOINT clears its stall bits, resets its
toggle and leaves it Idle, halted or not; both acknowledge EP0 with no effect on it (R317, R320, R238, R239). -/
def Obligations.EndpointFeatureHaltsAndClears : Prop :=
  ∀ (s : State) (v x l : BitVec 16) (on : Bool),
    let r := exec (if on then .setFeatureEndpoint v x l else .clearFeatureEndpoint v x l) s
    (¬ DefAddrConf s → r = .next (stalledRequest s .s3)) ∧
    (DefAddrConf s → l ≠ 0 → r = .next (stalledRequest s .s4)) ∧
    (DefAddrConf s → l = 0 → (∀ e, ¬ EpTarget s x e) → r = .next (stalledRequest s .s6)) ∧
    (∀ e, DefAddrConf s → l = 0 → EpTarget s x e → v ≠ 0 → r = .next (stalledRequest s .s5)) ∧
    (DefAddrConf s → l = 0 → EpTarget s x .ep0 → v = 0 → r = .next (tokensFree (noDataStage s none))) ∧
    (∀ e, e ≠ .ep0 → DefAddrConf s → l = 0 → EpTarget s x e → v = 0 →
      r = .next (tokensFree (noDataStage (epHalted s e on (if on then .stall else .idle)) none)))

/-- SET_ADDRESS: in Default and Addressed, wLength 0, address at most 127; only `pendingAddr` is written, the
commit is registered for the status stage (R321). -/
def Obligations.SetAddressPends : Prop :=
  ∀ (s : State) (v x l : BitVec 16),
    let r := exec (.setAddress v x l) s
    let ok := s.dev.conn = .default ∨ s.dev.conn = .addressed
    (¬ ok → r = .next (stalledRequest s .s3)) ∧
    (ok → l ≠ 0 → r = .next (stalledRequest s .s4)) ∧
    (ok → l = 0 → 127 < v.toNat → r = .next (stalledRequest s .s5)) ∧
    (ok → l = 0 → v.toNat ≤ 127 →
      r = .next (tokensFree (noDataStage
        { s with dev := { s.dev with pendingAddr := BitVec.ofNat 7 v.toNat } } (some .commitAddress))))

/-- GET_DESCRIPTOR_DEVICE and GET_DESCRIPTOR_CONFIGURATION: index 0 only; the descriptor is sent from ROM, 18
bytes and `wTotalLength` bytes long, cut to wLength; no memory is written (R323, R324, R274). -/
def Obligations.GetDescriptorSendsRom : Prop :=
  ∀ (s : State) (i : BitVec 8) (x l : BitVec 16) (config : Bool), buildOk s.cfg = true →
    let r := exec (if config then .getDescriptorConfiguration i x l else .getDescriptorDevice i x l) s
    let a := if config then s.cfg.cfgDescAddr else s.cfg.devDescAddr
    let n := if config then fld s.cfg.configDesc 2 + 256 * fld s.cfg.configDesc 3 else 18
    (¬ DefAddrConf s → r = .next (stalledRequest s .s3)) ∧
    (DefAddrConf s → i ≠ 0 → r = .next (stalledRequest s .s5)) ∧
    (DefAddrConf s → i = 0 → r = .next (tokensFree (dataInStage s a (min n l.toNat) none)))

/-- GET_DESCRIPTOR_STRING: index 0 is sent from ROM; an index below NSTR is encoded, written to the scratch
buffer and to nothing else, and sent from there, cut to wLength; the rest stalls with S5 (R325, R206). -/
def Obligations.GetDescriptorStringEncodes : Prop :=
  ∀ (s : State) (i : BitVec 8) (x l : BitVec 16), buildOk s.cfg = true → memWf s = true →
    let r := exec (.getDescriptorString i x l) s
    let b := encodeString s.cfg i.toNat
    (¬ DefAddrConf s → r = .next (stalledRequest s .s3)) ∧
    (DefAddrConf s → nstr s.cfg ≤ i.toNat → r = .next (stalledRequest s .s5)) ∧
    (DefAddrConf s → i = 0 → r = .next (tokensFree
      (dataInStage s s.cfg.langidAddr (min s.cfg.langidDesc.length l.toNat) none))) ∧
    (DefAddrConf s → i ≠ 0 → i.toNat < nstr s.cfg → b.length ≤ s.cfg.ep0Mps ∧ ∃ t, r = .next t ∧
      IsButStored s (tokensFree (dataInStage s s.cfg.scratchAddr (min b.length l.toNat) none)) t
        s.cfg.scratchAddr b)

/-- In a configuration that passes the build checks only the serial string is ever cut. A static string is the UTF-8
of some 16-bit units, none a surrogate, and its descriptor has them all: its own length, 0x03, the units low byte
first, no longer than EP0_MPS and 255. The serial string is ASCII, and its descriptor has its characters as 16-bit
units, the first `(EP0_MPS - 2) div 2` of them if there are more (R201, R206, R207, R208, R502). -/
def Obligations.SerialStringIsCut : Prop :=
  ∀ (c : Params), buildOk c = true →
    (∀ i src, i ≠ 2 → ([c.manufacturer, c.product, c.serial] ++ c.ifNames)[i]? = some src →
      ∃ u : List (BitVec 16), src = u.flatMap utf8Of ∧
        (∀ x ∈ u, ¬ (0xD800 ≤ x.toNat ∧ x.toNat ≤ 0xDFFF)) ∧
        2 + 2 * u.length ≤ c.ep0Mps ∧ 2 + 2 * u.length ≤ 255 ∧
        encodeString c (i + 1) = BitVec.ofNat 8 (2 + 2 * u.length) :: 0x03 :: u.flatMap utf16Of) ∧
    (∀ b ∈ c.serial, b.toNat < 0x80) ∧
    let k := min c.serial.length ((c.ep0Mps - 2) / 2)
    let b := encodeString c 3
    b.length = 2 + 2 * k ∧ b.length ≤ c.ep0Mps ∧ b[0]? = some (BitVec.ofNat 8 (2 + 2 * k)) ∧
    b[1]? = some 0x03 ∧
    ∀ j, j < k → b[2 + 2 * j]? = c.serial[j]? ∧ b[3 + 2 * j]? = some 0

/-- GET_DESCRIPTOR_OTHER: S3 outside the valid states, else S5, whatever the type (R326). -/
def Obligations.GetDescriptorOtherStalls : Prop :=
  ∀ (s : State) (t i : BitVec 8) (x l : BitVec 16),
    let r := exec (.getDescriptorOther t i x l) s
    (¬ DefAddrConf s → r = .next (stalledRequest s .s3)) ∧
    (DefAddrConf s → r = .next (stalledRequest s .s5))

/-- SET_DESCRIPTOR, SYNCH_FRAME and STD_UNMATCHED stall with S2 in every state, with no other check (R327, R333,
R334). -/
def Obligations.UnknownStandardRequestsStall : Prop :=
  ∀ (s : State) (bm q : BitVec 8) (v x l : BitVec 16),
    exec (.setDescriptor v x l) s = .next (stalledRequest s .s2) ∧
    exec (.synchFrame v x l) s = .next (stalledRequest s .s2) ∧
    exec (.stdUnmatched bm q v x l) s = .next (stalledRequest s .s2)

/-- GET_CONFIGURATION: wLength 1; the reply is `dev.config` (R328). -/
def Obligations.GetConfigurationReplies : Prop :=
  ∀ (s : State) (v x l : BitVec 16), buildOk s.cfg = true → memWf s = true →
    let r := exec (.getConfiguration v x l) s
    let a := bufAddr s.cfg .ep0 .tx s.ep.ep0.odd.tx
    (¬ DefAddrConf s → r = .next (stalledRequest s .s3)) ∧
    (DefAddrConf s → l ≠ 1 → r = .next (stalledRequest s .s4)) ∧
    (DefAddrConf s → l = 1 → ∃ t, r = .next t ∧
      IsButStored s (tokensFree (dataInStage s a 1 none)) t a [s.dev.config])

/-- SET_CONFIGURATION: 1 rebuilds every other endpoint and enters Configured at once; 0 from Configured tears
them down and enters Addressed; 0 in Addressed changes nothing; other values stall with S5 (R329, R330). -/
def Obligations.SetConfigurationRebuilds : Prop :=
  ∀ (s : State) (v x l : BitVec 16),
    let r := exec (.setConfiguration v x l) s
    let ok := s.dev.conn = .addressed ∨ s.dev.conn = .configured
    (¬ ok → r = .next (stalledRequest s .s3)) ∧
    (ok → l ≠ 0 → r = .next (stalledRequest s .s4)) ∧
    (ok → l = 0 → v ≠ 0 → v ≠ 1 → r = .next (stalledRequest s .s5)) ∧
    (ok → l = 0 → v = 1 → r = .next (tokensFree (noDataStage
      { allRebuilt s true with dev := { s.dev with config := 1, conn := .configured } } none))) ∧
    (s.dev.conn = .configured → l = 0 → v = 0 → r = .next (tokensFree (noDataStage
      { allRebuilt s false with dev := { s.dev with config := 0, conn := .addressed } } none))) ∧
    (s.dev.conn = .addressed → l = 0 → v = 0 → r = .next (tokensFree (noDataStage s none)))

/-- SET_INTERFACE: in Configured, wLength 0, a valid interface, alternate setting 0: acknowledged with no other
change (R332, R336). -/
def Obligations.SetInterfaceAcknowledges : Prop :=
  ∀ (s : State) (v x l : BitVec 16),
    let r := exec (.setInterface v x l) s
    (s.dev.conn ≠ .configured → r = .next (stalledRequest s .s3)) ∧
    (s.dev.conn = .configured → l ≠ 0 → r = .next (stalledRequest s .s4)) ∧
    (s.dev.conn = .configured → l = 0 → s.cfg.numIf ≤ x.toNat % 256 → r = .next (stalledRequest s .s6)) ∧
    (s.dev.conn = .configured → l = 0 → x.toNat % 256 < s.cfg.numIf → v ≠ 0 →
      r = .next (stalledRequest s .s5)) ∧
    (s.dev.conn = .configured → l = 0 → x.toNat % 256 < s.cfg.numIf → v = 0 →
      r = .next (tokensFree (noDataStage s none)))

/-- The checks of the four CDC requests, in order: a hook installed, Configured, wLength (7; any; 0; 0), the CDC
interface (R411, R410). `k` numbers the requests. -/
def Obligations.CdcChecksInOrder : Prop :=
  ∀ (s : State) (v x l : BitVec 16) (k : Fin 4),
    let r := exec (if k = 0 then .cdcSetLineCoding v x l else if k = 1 then .cdcGetLineCoding v x l
      else if k = 2 then .cdcSetControlLineState v x l else .cdcSendBreak v x l) s
    let badLen := (k = 0 ∧ l ≠ 7) ∨ (2 ≤ k.val ∧ l ≠ 0)
    (s.hooks.setup = .absent → r = .next (stalledRequest s .s7)) ∧
    (s.hooks.setup = .cdc → s.dev.conn ≠ .configured → r = .next (stalledRequest s .s3)) ∧
    (s.hooks.setup = .cdc → s.dev.conn = .configured → badLen → r = .next (stalledRequest s .s4)) ∧
    (s.hooks.setup = .cdc → s.dev.conn = .configured → ¬ badLen → x.toNat % 256 ≠ s.cfg.ifCdcComm.toNat →
      r = .next (stalledRequest s .s6))

/-- CDC_SET_LINE_CODING starts a 7-byte OUT data stage to `LC_ADDR` with ApplyLineCoding registered; nothing
reaches the backend yet (R412, R275). -/
def Obligations.CdcSetLineCodingStartsData : Prop :=
  ∀ (s : State) (v x : BitVec 16), s.hooks.setup = .cdc → s.dev.conn = .configured →
    x.toNat % 256 = s.cfg.ifCdcComm.toNat →
    exec (.cdcSetLineCoding v x 7) s =
      .next (tokensFree (dataOutStage s s.cfg.lcAddr 7 (some .applyLineCoding)))

/-- CDC_GET_LINE_CODING asks the backend, writes its 7 bytes at `LC_ADDR` and sends them cut to wLength (R414). -/
def Obligations.CdcGetLineCodingReplies : Prop :=
  ∀ (s : State) (v x l : BitVec 16), buildOk s.cfg = true → memWf s = true → s.hooks.setup = .cdc →
    s.dev.conn = .configured → x.toNat % 256 = s.cfg.ifCdcComm.toNat →
    ∃ t, exec (.cdcGetLineCoding v x l) s = .next t ∧
      IsButStored s
        (tokensFree (dataInStage { s with out := s.out ++ [.backendGetLineCoding] } s.cfg.lcAddr
          (min 7 l.toNat) none)) t s.cfg.lcAddr
        [s.backend.lc.dwDTERate.extractLsb' 0 8, s.backend.lc.dwDTERate.extractLsb' 8 8,
         s.backend.lc.dwDTERate.extractLsb' 16 8, s.backend.lc.dwDTERate.extractLsb' 24 8,
         s.backend.lc.bCharFormat, s.backend.lc.bParityType, s.backend.lc.bDataBits]

/-- CDC_SET_CONTROL_LINE_STATE passes wValue bits 1:0 and CDC_SEND_BREAK passes wValue to the backend, in the
SETUP's step, and have no data stage (R415, R416). -/
def Obligations.CdcLineStateAndBreakReachBackend : Prop :=
  ∀ (s : State) (v x : BitVec 16), s.hooks.setup = .cdc → s.dev.conn = .configured →
    x.toNat % 256 = s.cfg.ifCdcComm.toNat →
    exec (.cdcSetControlLineState v x 0) s = .next (tokensFree (noDataStage
      { s with out := s.out ++ [.backendSetControlLineState (BitVec.ofNat 2 (v.toNat % 4))] } none)) ∧
    exec (.cdcSendBreak v x 0) s = .next (tokensFree (noDataStage
      { s with out := s.out ++ [.backendSendBreak v] } none))

/-- CLASS_UNMATCHED and RESERVED_TYPE stall with S7, and so does VENDOR_REQUEST with no vendor hook or no setup
hook installed (R417, R410). -/
def Obligations.UnhandledClassRequestsStall : Prop :=
  ∀ (s : State) (bm q : BitVec 8) (v x l : BitVec 16),
    exec (.classUnmatched bm q v x l) s = .next (stalledRequest s .s7) ∧
    exec (.reservedType bm q v x l) s = .next (stalledRequest s .s7) ∧
    (s.hooks.setup = .absent ∨ s.cfg.vendorHook = none →
      exec (.vendorRequest bm q v x l) s = .next (stalledRequest s .s7))

/-- With a vendor hook installed VENDOR_REQUEST completes in every state of a configuration that passes the build
checks, with the hook's answer to the packet and to `dev` as it reads, TOKDNE following the token queue. A DataIn or
DataOut that contradicts bmRequestType bit 7 stalls with S7, and then, as on every stall, nothing of the backend or
of the staging buffer changes. Otherwise the outcome takes effect after the hook's backend calls, an OUT stage
having wLength bytes; each staging byte holds what the hook wrote to it last, and every other byte is as before (R410,
R417, R501, R273-R277, R132, R289, R442). That a hook is a table of rows, and that the contradicting answer's writes
are dropped, is the model's choice (log 19, log 38). -/
def Obligations.VendorHookOutcomeTakesEffect : Prop :=
  ∀ (s : State) (bm q : BitVec 8) (v x l : BitVec 16) (rows : List HookRow), buildOk s.cfg = true →
    memWf s = true → s.hooks.setup = .cdc → s.cfg.vendorHook = some rows →
    let h := vendorReply rows ⟨bm, q, v, x, l⟩ { s.dev with
      istat := s.dev.istat &&& 0xF7 ||| (if s.sie.tokq = [] then 0 else 0x08) }
    let r := exec (.vendorRequest bm q v x l) s
    let u := h.calls.foldl backendCall s
    let effect := fun y : State => ∃ t, r = .next t ∧ { t with mem := s.mem } = y ∧
      (∀ i : Fin 7, peek t (s.cfg.lcAddr.toNat + i) =
        (lastWrite h.staging i).getD (peek s (s.cfg.lcAddr.toNat + i))) ∧
      ∀ a, ¬ InRange a s.cfg.lcAddr.toNat 7 → peek t a = peek s a
    match h.outcome with
    | .stall c => r = .next (stalledRequest s c)
    | .noData cb => effect (tokensFree (noDataStage u cb))
    | .dataIn a n cb =>
      if bm.getLsbD 7 then effect (tokensFree (dataInStage u a (min n l.toNat) cb))
      else r = .next (stalledRequest s .s7)
    | .dataOut a cb =>
      if bm.getLsbD 7 then r = .next (stalledRequest s .s7)
      else if l = 0 then effect (tokensFree (noDataStage u cb))
      else effect (tokensFree (dataOutStage u a l cb))

/-! ## Token completions (42_transfer_engine.md, 43_control_fsm.md) -/

/-- TOK_SETUP_EP0 copies the 8 bytes out first, resynchronises EP0, then runs the request the packet decodes to,
or stalls with S1 if its byte count is not 8; it always completes (R272, R273). That a request's operation starts after the resynchronisation is the model's choice (log 24). -/
def Obligations.SetupCompletionRunsRequest : Prop :=
  ∀ (s : State) (k : Bool), buildOk s.cfg = true → Completed s .ep0 .rx k pidSetup →
    let p := setupAt s (bufAddr s.cfg .ep0 .rx k).toNat
    ((slot s .ep0 .rx k).bc ≠ 8 →
      exec (.tokSetupEp0 k) s = .next (stalledRequest (setupResynced s p) .s1)) ∧
    ((slot s .ep0 .rx k).bc = 8 →
      exec (.tokSetupEp0 k) s = exec (decodeSetup p) (setupResynced s p)) ∧
    ∃ t, exec (.tokSetupEp0 k) s = .next t ∧ t.setup = p ∧ t.sie.tokenSuspended = false

/-- TOK_OUT_EP0 in DataOut: more than the bytes left stalls with S9; else the packet is copied to the cursor and
to nowhere else, the cursor advances, and the stage ends with the status stage armed and the callback run, or
goes on with the next packet armed (R278, R279, R285). -/
def Obligations.Ep0OutDataStage : Prop :=
  ∀ (s : State) (k : Bool), buildOk s.cfg = true → memWf s = true →
    Completed s .ep0 .rx k pidOut → s.ep.ep0.phase = .dataOut →
    let n := (slot s .ep0 .rx k).bc
    let b := peeks s (bufAddr s.cfg .ep0 .rx k).toNat n.toNat
    let r := exec (.tokOutEp0 k) s
    let done := s.ep.ep0.remaining.toNat = n.toNat ∨ n.toNat < s.cfg.ep0Mps
    (s.ep.ep0.remaining.toNat < n.toNat → r = .next (ep0Stalled (ep0OutFlipped s) .s9)) ∧
    (n.toNat ≤ s.ep.ep0.remaining.toNat → n.toNat ≤ s.cfg.ep0Mps →
      Writable s.cfg s.ep.ep0.ptr.toNat n.toNat →
      (done → ∃ t, r = .next (callbackRan t .ep0 s.ep.ep0.callback) ∧
        IsButStored s
          (ep0Armed (ep0OutFlipped s)
            { packetDone s.ep.ep0 .rx n .statusIn with callback := none }
            (bufAddr s.cfg .ep0 .tx s.ep.ep0.odd.tx) 0) t s.ep.ep0.ptr b) ∧
      (¬ done → ∃ t, r = .next t ∧
        IsButStored s (ep0RxArmed (ep0OutFlipped s) (packetDone s.ep.ep0 .rx n .dataOut)) t
          s.ep.ep0.ptr b))

/-- TOK_OUT_EP0 outside the OUT data stage: in StatusOut a ZLP ends the transfer; in DataIn and LastIn a ZLP ends
it early; data in those phases, and anything in Idle and StatusIn, stalls with S8 (R280, R281, R282). -/
def Obligations.Ep0OutStatusStages : Prop :=
  ∀ (s : State) (k : Bool), Completed s .ep0 .rx k pidOut →
    let n := (slot s .ep0 .rx k).bc
    let u := ep0OutFlipped s
    let r := exec (.tokOutEp0 k) s
    (s.ep.ep0.phase = .statusOut → n = 0 →
      r = .next (ep0RxArmed u { u.ep.ep0 with phase := .idle })) ∧
    (s.ep.ep0.phase = .dataIn ∨ s.ep.ep0.phase = .lastIn → n = 0 → r = .next (ep0EarlyStatus u)) ∧
    (s.ep.ep0.phase = .statusOut ∨ s.ep.ep0.phase = .dataIn ∨ s.ep.ep0.phase = .lastIn → n ≠ 0 →
      r = .next (ep0Stalled u .s8)) ∧
    (s.ep.ep0.phase = .idle ∨ s.ep.ep0.phase = .statusIn → r = .next (ep0Stalled u .s8))

/-- TOK_IN_EP0: selector and toggle flip and the cursor advances; DataIn arms the next packet (or the ZLP owed),
LastIn enters StatusOut and StatusIn enters Idle, each running the callback once (R283, R284, R235, R237). -/
def Obligations.Ep0InAdvances : Prop :=
  ∀ (s : State) (k : Bool), buildOk s.cfg = true → Completed s .ep0 .tx k pidIn →
    let n := (slot s .ep0 .tx k).bc
    let r := exec (.tokInEp0 k) s
    let left := (s.ep.ep0.remaining - n.setWidth 16).toNat
    (s.ep.ep0.phase = .dataIn → r = .next (packetArmed s .ep0 .tx
      (packetDone s.ep.ep0 .tx n (inPhase s.cfg .ep0 (min left (mps s.cfg .ep0)))))) ∧
    (s.ep.ep0.phase = .lastIn → r = .next (finished s .ep0 (packetDone s.ep.ep0 .tx n .statusOut))) ∧
    (s.ep.ep0.phase = .statusIn → r = .next (finished s .ep0 (packetDone s.ep.ep0 .tx n .idle)))

/-- TOK_IN_EPN: as EP0's IN, but LastIn ends in Idle (R235). -/
def Obligations.EpnInAdvances : Prop :=
  ∀ (s : State) (e : EpId) (ep : BitVec 4) (k : Bool), buildOk s.cfg = true → Other s.cfg e →
    ep.toNat = e.num → Completed s e .tx k pidIn →
    let x := s.ep.get e
    let n := (slot s e .tx k).bc
    let r := exec (.tokInEpn ep k) s
    let left := (x.remaining - n.setWidth 16).toNat
    (x.phase = .dataIn → r = .next (packetArmed s e .tx
      (packetDone x .tx n (inPhase s.cfg e (min left (mps s.cfg e)))))) ∧
    (x.phase = .lastIn → r = .next (finished s e (packetDone x .tx n .idle)))

/-- TOK_OUT_EPN: a short packet or the last byte ends the transfer in Idle with its callback run; else the next
packet is armed (R236). -/
def Obligations.EpnOutAdvances : Prop :=
  ∀ (s : State) (e : EpId) (ep : BitVec 4) (k : Bool), buildOk s.cfg = true → Other s.cfg e →
    ep.toNat = e.num → Completed s e .rx k pidOut → (s.ep.get e).phase = .dataOut →
    let x := s.ep.get e
    let n := (slot s e .rx k).bc
    let r := exec (.tokOutEpn ep k) s
    let done := x.remaining - n.setWidth 16 = 0 ∨ n.toNat < mps s.cfg e
    (done → r = .next (finished s e (packetDone x .rx n .idle))) ∧
    (¬ done → r = .next (packetArmed s e .rx (packetDone x .rx n .dataOut)))

/-- A completion no rule expects is dropped with fault F4 and no other change: a disabled endpoint, another
slot than the selector's, an owned slot, another PID, a phase that expects none, a number that is no client
endpoint, and every SETUP of an endpoint other than EP0 (R372, R443, R138). -/
def Obligations.UnexpectedCompletionsFault : Prop :=
  ∀ (s : State) (ep : BitVec 4) (k : Bool),
    let f := Host.Outcome.next (faulted s .f4)
    let x0 := s.ep.ep0
    exec (.tokSetupEpn ep k) s = f ∧
    (¬ Completed s .ep0 .rx k pidSetup → exec (.tokSetupEp0 k) s = f) ∧
    (¬ Completed s .ep0 .rx k pidOut ∨ x0.phase = .stall → exec (.tokOutEp0 k) s = f) ∧
    (¬ Completed s .ep0 .tx k pidIn ∨ ¬ (x0.phase = .dataIn ∨ x0.phase = .lastIn ∨ x0.phase = .statusIn) →
      exec (.tokInEp0 k) s = f) ∧
    ((∀ e, Other s.cfg e → ep.toNat = e.num → ¬ Completed s e .tx k pidIn ∨
        ¬ ((s.ep.get e).phase = .dataIn ∨ (s.ep.get e).phase = .lastIn)) →
      exec (.tokInEpn ep k) s = f) ∧
    ((∀ e, Other s.cfg e → ep.toNat = e.num → ¬ Completed s e .rx k pidOut ∨ (s.ep.get e).phase ≠ .dataOut) →
      exec (.tokOutEpn ep k) s = f)

/-! ## Bus events (45_device_state_bus_events.md) -/

/-- EV_USBRST: every endpoint, slot and SIE element re-initialised, slot addresses kept, EP0's RX slot 0 armed,
the device in Default at address 0 with INTEN_DEFAULT; frame, hooks, output, faults, backend and memory kept (R373,
R482). That `setup`, unspecified after a bus reset, is kept too is the model's choice (log 35). -/
def Obligations.BusResetReinitialises : Prop :=
  ∀ (s : State), ∃ t, exec .evUsbrst s = .next t ∧
    t.dev = { s.dev with
      conn := .default, config := 0, addr := 0, pendingAddr := 0, remoteWakeup := false
      epActive := true, istat := 0, inten := s.cfg.intenDefault, errstat := 0 } ∧
    (∀ e, t.ep.get e = ⟨.idle, decide (e = .ep0), ⟨false, false⟩, ⟨false, false⟩, 0, 0, 0, none⟩) ∧
    (∀ e d k, slot t e d k =
      if e = .ep0 ∧ d = .rx ∧ k = false then
        ⟨true, false, false, BitVec.ofNat 10 s.cfg.ep0Mps, bufAddr s.cfg .ep0 .rx false, 0⟩
      else ⟨false, false, false, 0, (slot s e d k).addr, 0⟩) ∧
    (∀ e d, (t.sie.odd.get e).get d = false) ∧ t.sie.tokq = [] ∧ t.sie.tokenSuspended = false ∧
    { t with dev := s.dev, ep := s.ep, bdt := s.bdt, sie := s.sie } = s

/-- EV_SLEEP suspends from Configured only: activity off, a stale resume report dropped, the resume interrupt
enabled; EV_RESUME returns to Configured if genuine, logs a spurious one and stays suspended, and outside
Suspended only disables the resume interrupt; each clears its own bit first (R377, R374). -/
def Obligations.SleepAndResume : Prop :=
  ∀ (s : State) (g : Bool),
    (s.dev.conn = .configured → exec .evSleep s = .next { s with dev := { s.dev with
      conn := .suspended, epActive := false, istat := s.dev.istat &&& 0xCF
      inten := s.dev.inten ||| 0x20 } }) ∧
    (s.dev.conn ≠ .configured → exec .evSleep s = .next { s with dev := { s.dev with
      istat := s.dev.istat &&& 0xEF } }) ∧
    (s.dev.conn = .suspended → g = true → exec (.evResume g) s = .next { s with dev := { s.dev with
      conn := .configured, epActive := true, istat := s.dev.istat &&& 0xDF
      inten := s.dev.inten &&& 0xDF } }) ∧
    (s.dev.conn = .suspended → g = false → exec (.evResume g) s = .next { s with
      dev := { s.dev with istat := s.dev.istat &&& 0xDF }
      out := s.out ++ [.log .spuriousResume] }) ∧
    (s.dev.conn ≠ .suspended → exec (.evResume g) s = .next { s with dev := { s.dev with
      istat := s.dev.istat &&& 0xDF, inten := s.dev.inten &&& 0xDF } })

/-- EV_STALL clears its bit and nothing else; EV_SOFTOK clears its bit and reports the frame, then what an
installed SOF hook emits; EV_ERROR logs and clears the error bits (R375, R376, R378). That a SOF hook is a table of
the events by frame is the model's choice (log 20). -/
def Obligations.StallSofAndErrorEvents : Prop :=
  ∀ (s : State),
    exec .evStall s = .next { s with dev := { s.dev with istat := s.dev.istat &&& 0x7F } } ∧
    exec .evSoftok s = .next { s with
      dev := { s.dev with istat := s.dev.istat &&& 0xFB }
      out := s.out ++ (.sof s.dev.frame :: match s.hooks.sof with
        | .absent => []
        | .installed => sofEvents s.cfg s.dev.frame) } ∧
    exec .evError s = .next { s with
      dev := { s.dev with istat := s.dev.istat &&& 0xFD, errstat := 0 }
      out := s.out ++ [.log (.busError s.dev.errstat)] }

/-- EV_TOKDNE serves one completion: the oldest of EP0 if any, else the oldest. It runs the completion's row on
the state without it, and drops it with F4 if no row matches its PID and direction, or its number is no endpoint's
(R372, R138, R130(g)). -/
def Obligations.TokenEventServesEp0First : Prop :=
  ∀ (s : State) (q r : List Completion) (c : Completion), s.sie.tokq = q ++ c :: r →
    (if c.ep = 0 then ∀ x ∈ q, x.ep ≠ 0 else q = [] ∧ ∀ x ∈ r, x.ep ≠ 0) →
    let u := { s with sie := { s.sie with tokq := q ++ r } }
    (∀ e i, e.num = c.ep.toNat → e.num < s.cfg.numEp →
      decodeCompletion (completionWord (slot s e c.dir c.odd).pid c.ep c.dir c.odd) = some i →
      exec .evTokdne s = exec i u) ∧
    (∀ e, e.num = c.ep.toNat → e.num < s.cfg.numEp →
      decodeCompletion (completionWord (slot s e c.dir c.odd).pid c.ep c.dir c.odd) = none →
      exec .evTokdne s = .next (faulted u .f4)) ∧
    (s.cfg.numEp ≤ c.ep.toNat → exec .evTokdne s = .next (faulted u .f4))

/-- EV_TOKDNE completes in every state in which EP0 is in a phase of R31 and its OUT destination can be written; it
removes at least the completion it serves (R370, R372). -/
def Obligations.TokenEventCompletes : Prop :=
  ∀ (s : State), buildOk s.cfg = true → memWf s = true →
    LegalPhase s.cfg .ep0 s.ep.ep0.phase →
    (slot s .ep0 .rx s.ep.ep0.odd.rx).bc.toNat ≤ s.cfg.ep0Mps →
    (s.ep.ep0.phase = .dataOut →
      ∀ n, n ≤ s.ep.ep0.remaining.toNat → Writable s.cfg s.ep.ep0.ptr.toNat n) →
    ∃ t, exec .evTokdne s = .next t ∧
      (s.sie.tokq ≠ [] → t.sie.tokq.length < s.sie.tokq.length)

/-! ## Client commands (42_transfer_engine.md, 46_class_cdc.md) -/

/-- startTx (`d` = TX) and startRx (`d` = RX): the checks F2, F5, F1, F3 in order, each leaving nothing but its
fault; then the cursor is set and the first packet armed; the callback, the other endpoints and memory are kept. A
buffer outside R494 (a), (b) is refused, in the model's reading of them (log 15) (R233, R234, R231, R232, R443). -/
def Obligations.StartChecksAndArms : Prop :=
  ∀ (s : State) (e : BitVec 8) (len : BitVec 16) (buf : BitVec 32) (d : Dir),
    let r := exec (match d with | .tx => .startTx e len buf | .rx => .startRx e len buf) s
    ((∀ i, ¬ ClientEp s e i) → r = .next (faulted s .f2)) ∧
    (∀ i, ClientEp s e i →
      let x := s.ep.get i
      (dirOf s.cfg i ≠ d → r = .next (faulted s .f5)) ∧
      (dirOf s.cfg i = d → x.phase ≠ .idle → r = .next (faulted s .f1)) ∧
      (dirOf s.cfg i = d → x.phase = .idle → buf = 0 → mps s.cfg i < len.toNat → r = .next (faulted s .f3)) ∧
      (dirOf s.cfg i = d → x.phase = .idle → (buf = 0 → len.toNat ≤ mps s.cfg i) → BufAdmitted s d buf len →
        r = .next (transferBegun s i d buf len)) ∧
      (dirOf s.cfg i = d → x.phase = .idle → ¬ BufAdmitted s d buf len → r = .refused .clientBuffer))

/-- On a client endpoint, in any phase: stall halts it and clearStall frees it (callback dropped, both slots of its
direction taken back, toggle DATA0, selectors and SIE pointers 0, its completions purged, cursor kept), and
setCallback registers `Client(id)` and changes nothing else. On any other endpoint each is a fault F2 (R241, R242,
R240, R238, R239). -/
def Obligations.StallAndCallbackCommands : Prop :=
  ∀ (s : State) (e : BitVec 8) (id : Nat),
    ((∀ i, ¬ ClientEp s e i) → exec (.stall e) s = .next (faulted s .f2) ∧
      exec (.clearStall e) s = .next (faulted s .f2) ∧
      exec (.setCallback e id) s = .next (faulted s .f2)) ∧
    (∀ i, ClientEp s e i → exec (.stall e) s = .next (epHalted s i true .stall) ∧
      exec (.clearStall e) s = .next (epHalted s i false .idle) ∧
      exec (.setCallback e id) s =
        .next { s with ep := s.ep.set i { s.ep.get i with callback := some (.client id) } })

/-- notify, on the notification endpoint, which is EP3 in the default map: F2 if it is disabled, F1 if it is busy,
nothing sent; else the 10 bytes of the SERIAL_STATE notification are stored in its TX buffer, and no other byte
changes, and one packet of 10 bytes is armed (R418, R123). Which endpoint it is in another map, and F2 in a map
without one, is the model's choice (log 36). -/
def Obligations.NotifySendsSerialState : Prop :=
  ∀ (s : State) (v : BitVec 16), buildOk s.cfg = true → memWf s = true →
    (s.cfg.epMap = defaultMap → s.cfg.ifCdcComm = 1 → 3 < s.cfg.numEp →
      HasRole s.cfg .interrupt .tx s.cfg.ifCdcComm .ep3) ∧
    ((∀ e, ¬ HasRole s.cfg .interrupt .tx s.cfg.ifCdcComm e) → exec (.notify v) s = .next (faulted s .f2)) ∧
    ∀ e, HasRole s.cfg .interrupt .tx s.cfg.ifCdcComm e →
      let x := s.ep.get e
      let a := bufAddr s.cfg e .tx x.odd.tx
      (x.enabled = false → exec (.notify v) s = .next (faulted s .f2)) ∧
      (x.enabled = true → x.phase ≠ .idle → exec (.notify v) s = .next (faulted s .f1)) ∧
      (x.enabled = true → x.phase = .idle → ∃ t, exec (.notify v) s = .next t ∧
        IsButStored s (transferBegun s e .tx 0 10) t a
          [0xA1, 0x20, 0, 0, s.cfg.ifCdcComm, 0, 2, 0, BitVec.ofNat 8 v.toNat, BitVec.ofNat 8 (v.toNat / 256)])

/-- sendData starts an IN transfer on the vendor interface's bulk IN endpoint and receiveData an OUT transfer on its
bulk OUT endpoint, EP2 and EP1 in the default map, and the call then waits; on a fault of the start it returns at
once, receiveData with 0; isConfigured returns whether the device is Configured (R244). Where the waits and return
values are kept, and which endpoints these are in another map, is the model's choice (log 12, log 36). -/
def Obligations.BlockingCallsStartAndWait : Prop :=
  ∀ (s : State) (buf : BitVec 32) (len : BitVec 16),
    let bulk := HasRole s.cfg .bulk
    let v := s.cfg.ifVendor
    (s.cfg.epMap = defaultMap → v = 0 → 2 < s.cfg.numEp → bulk .tx v .ep2 ∧ bulk .rx v .ep1) ∧
    ((∀ e, ¬ bulk .tx v e) → exec (.sendData buf len) s = .next (faulted s .f2)) ∧
    ((∀ e, ¬ bulk .rx v e) → exec (.receiveData buf len) s =
      .next { faulted s .f2 with client := { s.client with recvRet := 0 } }) ∧
    (∀ e f, bulk .tx v e → exec (.startTx (BitVec.ofNat 8 e.num) len buf) s = .next (faulted s f) →
      exec (.sendData buf len) s = .next (faulted s f)) ∧
    (∀ e f, bulk .rx v e → exec (.startRx (BitVec.ofNat 8 e.num) len buf) s = .next (faulted s f) →
      exec (.receiveData buf len) s = .next { faulted s f with client := { s.client with recvRet := 0 } }) ∧
    (∀ e, bulk .tx v e → (s.ep.get e).enabled = true → (s.ep.get e).phase = .idle →
      (buf = 0 → len.toNat ≤ mps s.cfg e) → BufAdmitted s .tx buf len → exec (.sendData buf len) s =
        .next { transferBegun s e .tx buf len with client := { s.client with sendWait := true } }) ∧
    (∀ e, bulk .rx v e → (s.ep.get e).enabled = true → (s.ep.get e).phase = .idle →
      (buf = 0 → len.toNat ≤ mps s.cfg e) → BufAdmitted s .rx buf len → exec (.receiveData buf len) s =
        .next { transferBegun s e .rx buf len with client := { s.client with recvWait := true } }) ∧
    exec .isConfigured s = .next { s with client :=
      { s.client with confRet := decide (s.dev.conn = .configured) } }

/-- A waiting call goes on waiting through a step, INIT apart, exactly while its endpoint is enabled and not Idle, a
halted one too; receiveData returns `xferred` in the step that ends its wait, and no other return value changes
while a call waits (R244, R452, R497). That a wait is re-checked after every step, and which endpoint it is on in
another map than the default one, is the model's choice (log 12, log 36). -/
def Obligations.WaitsEndWithTheirEndpoint : Prop :=
  ∀ (s t : State), step s = .next t →
    let on := fun (d : Dir) e => HasRole s.cfg .bulk d s.cfg.ifVendor e ∧
      (t.ep.get e).enabled = true ∧ (t.ep.get e).phase ≠ .idle
    (t.client.sendWait = true → ∃ e, on .tx e) ∧
    (t.client.recvWait = true → ∃ e, on .rx e) ∧
    (nextLine s ≠ some .init →
      (s.client.sendWait = true → (∃ e, on .tx e) → t.client.sendWait = true) ∧
      (s.client.recvWait = true → (∃ e, on .rx e) → t.client.recvWait = true) ∧
      (∀ e, HasRole s.cfg .bulk .rx s.cfg.ifVendor e → s.client.recvWait = true → t.client.recvWait = false →
        t.client.recvRet = (t.ep.get e).xferred) ∧
      (Waits s → t.client.confRet = s.client.confRet ∧
        (t.client.recvWait = s.client.recvWait → t.client.recvRet = s.client.recvRet)))

/-! ## Host transactions and bus signals (40_bus_interface.md) -/

/-- A SETUP, OUT or IN that reaches no endpoint (another address, activity off, an endpoint number that is none or
disabled, a direction the endpoint lacks, a SETUP of another endpoint than EP0) gets no answer and changes nothing
else (R161). The answer's place in the state is the model's choice (log 13). -/
def Obligations.TokenFilterIsSilent : Prop :=
  ∀ (s : State) (a : BitVec 7) (e : BitVec 4) (p ack : Bool) (data : List Byte),
    (¬ Reaches s a e .rx .ep0 → runLine (.hSetup a e data) s = .next (answered s .none)) ∧
    ((∀ i, ¬ Reaches s a e .rx i) → runLine (.hOut a e p data) s = .next (answered s .none)) ∧
    ((∀ i, ¬ Reaches s a e .tx i) → runLine (.hIn a e ack) s = .next (answered s .none))

/-- A SETUP that reaches EP0: no answer while tokens are held off or the slot is not owned; an overlong one is an
error; else its bytes are stored at the slot's address and nowhere else, whatever the slot's stall bit and toggle
are, the completion is queued and the tokens are suspended (R162, R165). -/
def Obligations.SetupTransaction : Prop :=
  ∀ (s : State) (a : BitVec 7) (e : BitVec 4) (data : List Byte), memWf s = true →
    Reaches s a e .rx .ep0 →
    let k := s.sie.odd.ep0.rx
    let x := slot s .ep0 .rx k
    let r := runLine (.hSetup a e data) s
    (HeldOff s ∨ x.own = false → r = .next (answered s .none)) ∧
    (¬ HeldOff s → x.own = true → x.bc.toNat < data.length →
      Writable s.cfg x.addr.toNat x.bc.toNat → ∃ t, r = .next t ∧ Overran s t x) ∧
    (¬ HeldOff s → x.own = true → data.length ≤ x.bc.toNat →
      Writable s.cfg x.addr.toNat data.length → ∃ t u, r = .next t ∧
        u = packetQueued s .ep0 .rx k { x with
          own := false, data01 := false, bc := BitVec.ofNat 10 data.length, pid := 0xD } .ack ∧
        IsButStored s { u with sie := { u.sie with tokenSuspended := true } } t x.addr data)

/-- An OUT that reaches endpoint `i`: STALL, then NAK, then the error of an overlong packet, then a duplicate
ACKed and discarded; else its bytes are stored at the slot's address and nowhere else and the completion is queued
(R163, R165, R496). -/
def Obligations.OutTransaction : Prop :=
  ∀ (s : State) (a : BitVec 7) (e : BitVec 4) (p : Bool) (data : List Byte) (i : EpId),
    memWf s = true → Reaches s a e .rx i →
    let k := (s.sie.odd.get i).rx
    let x := slot s i .rx k
    let r := runLine (.hOut a e p data) s
    let ready := x.stall = false ∧ ¬ HeldOff s ∧ x.own = true
    (x.stall = true →
      r = .next (answered { s with dev := { s.dev with istat := s.dev.istat ||| 0x80 } } .stall)) ∧
    (x.stall = false → HeldOff s ∨ x.own = false → r = .next (answered s .nak)) ∧
    (ready → x.bc.toNat < data.length → Writable s.cfg x.addr.toNat x.bc.toNat →
      ∃ t, r = .next t ∧ Overran s t x) ∧
    (ready → data.length ≤ x.bc.toNat → p ≠ x.data01 → r = .next (answered s .ack)) ∧
    (ready → data.length ≤ x.bc.toNat → p = x.data01 → Writable s.cfg x.addr.toNat data.length →
      ∃ t, r = .next t ∧ IsButStored s
        (packetQueued s i .rx k { x with
          own := false, bc := BitVec.ofNat 10 data.length, pid := 0x1 } .ack) t x.addr data)

/-- An IN that reaches endpoint `i`: STALL, then NAK; else the slot's toggle and `bc` bytes read at this step at
the slot's address are sent, and if the host ACKs them the completion is queued, otherwise nothing changes
(R164, R165, R96). -/
def Obligations.InTransaction : Prop :=
  ∀ (s : State) (a : BitVec 7) (e : BitVec 4) (ack : Bool) (i : EpId), Reaches s a e .tx i →
    let k := (s.sie.odd.get i).tx
    let x := slot s i .tx k
    let r := runLine (.hIn a e ack) s
    let sent := Answer.data x.data01 (peeks s x.addr.toNat x.bc.toNat)
    (x.stall = true →
      r = .next (answered { s with dev := { s.dev with istat := s.dev.istat ||| 0x80 } } .stall)) ∧
    (x.stall = false → HeldOff s ∨ x.own = false → r = .next (answered s .nak)) ∧
    (x.stall = false → ¬ HeldOff s → x.own = true → x.addr.toNat + x.bc.toNat ≤ 2 ^ 32 →
      r = .next (if ack then packetQueued s i .tx k { x with own := false, pid := 0x9 } sent
        else answered s sent))

/-- The bus signals set their `istat` bit whatever `inten` is, write the frame number modulo 2^11 or the error
bits, and change nothing else; a bus reset signal keeps the address (R167, R168, R169, R170, R171, R172). -/
def Obligations.BusSignalsSetBits : Prop :=
  ∀ (s : State) (f : Nat) (x : BitVec 8),
    runLine .hReset s = .next { s with dev := { s.dev with istat := s.dev.istat ||| 0x01 } } ∧
    runLine (.hSof f) s = .next { s with dev := { s.dev with
      istat := s.dev.istat ||| 0x04, frame := BitVec.ofNat 11 (f % 2 ^ 11) } } ∧
    runLine .hIdle s = .next { s with dev := { s.dev with istat := s.dev.istat ||| 0x10 } } ∧
    runLine .hResume s = .next { s with dev := { s.dev with istat := s.dev.istat ||| 0x20 } } ∧
    (x ≠ 0 → runLine (.hError x) s = .next { s with dev := { s.dev with
      istat := s.dev.istat ||| 0x02, errstat := s.dev.errstat ||| x } })

/-! ## The machine -/

/-- A step takes the first line that is not held, runs the operation it decodes to on the state without it, and then
the waiting client calls re-check their condition. While a call waits, the client's lines but clearStall are held and
stay queued (R244, R452, R497). A client's word runs its operation (R133), a dispatch line the event of highest
priority (R370), a backend line `notify` (R419), M.WRITE stores its bytes and no others (R96, R135) and is refused
if it meets ROM (R83), every other line runs as `runLine` says; with no line to take, a pending event is dispatched.
The queue of lines, that last case, the wake-up and what holds a line, the free verdict, and that a dispatch line
with nothing pending passes with no effect are the model's (log 1, log 2, log 11, log 12, log 22). -/
def Obligations.StepRunsTheDecodedOperation : Prop :=
  ∀ (s : State) (held rest : List Line), buildOk s.cfg = true → (∀ l ∈ held, Held s l) →
    let u := { s with lines := held ++ rest }
    let wake := fun r : Res => andThen r fun t => .next (wakeClient t)
    (∀ word i, s.lines = held ++ .client word :: rest → decode .cmd word = .ok i →
      (Waits s → ∃ e, i = .clearStall e) → step s = wake (exec i u)) ∧
    (∀ g i, s.lines = held ++ .dispatch g :: rest → decodeEvent (pending s) g = some i →
      step s = wake (exec i u)) ∧
    (∀ g, s.lines = held ++ .dispatch g :: rest → pending s = 0 → step s = .next (wakeClient u)) ∧
    (∀ v, s.lines = held ++ .backend v :: rest → step s =
      wake (exec (.notify v) { u with backend := { s.backend with lineState := v } })) ∧
    (∀ a data, s.lines = held ++ .memWrite a data :: rest → ¬ Waits s → memWf s = true →
      Writable s.cfg a.toNat data.length →
      ∃ t, step s = .next (wakeClient t) ∧ IsButStored u u t a data) ∧
    (∀ a data r y, s.lines = held ++ .memWrite a data :: rest → ¬ Waits s →
      a.toNat + data.length ≤ 2 ^ 32 → r ∈ romRegions s.cfg → InRange y r.base r.size →
      InRange y a.toNat data.length → step s = .refused .romWrite) ∧
    (∀ l, s.lines = held ++ l :: rest → ¬ Held s l → step s = wake (runLine l u)) ∧
    (s.lines = held → pending s = 0 → step s = .next (wakeClient s)) ∧
    (∀ i, s.lines = held → decodeEvent (pending s) (Config.freeGenuine s.draws) = some i →
      step s = wake (exec i { s with draws := s.draws + 1 }))

/-- After power-on initialisation, in any configuration, and at the machine's reset state, which is that of the
example configuration, the model's choice (log 3): the device registers, every endpoint, every slot and the SIE at
their INIT values; no output, no fault; the CDC hook installed. INIT gives them again and keeps RAM, `setup` and the
rest of the run (R480; the kept ones are the model's choice, log 9). -/
def Obligations.PowerOnState : Prop :=
  (∀ (c : Params),
    let s := State.powerOn c
    s.cfg = c ∧ s.dev = ⟨.attached, 0, 0, 0, c.selfPowered, false, true, 0, c.intenDefault, 0, 0⟩ ∧
    (∀ e, s.ep.get e = ⟨.idle, decide (e = .ep0), ⟨false, false⟩, ⟨false, false⟩, 0, 0, 0, none⟩) ∧
    (∀ e d k, slot s e d k = ⟨false, false, false, 0, 0, 0⟩) ∧
    (∀ e d, (s.sie.odd.get e).get d = false) ∧ s.sie.tokq = [] ∧ s.sie.tokenSuspended = false ∧
    s.out = [] ∧ s.fault = ⟨false, false, false, false, false⟩ ∧ s.hooks.setup = .cdc ∧
    s.hooks.sof = (if c.sofHook.isSome then .installed else .absent) ∧ s.backend = ⟨c.backendLc0, 0⟩) ∧
  State.reset = State.powerOn Params.example ∧
  (∀ s, runLine .init s = .next { State.powerOn s.cfg with
    mem := s.mem, setup := s.setup, lines := s.lines, draws := s.draws })

/-- No run starts in a configuration that fails a build check (R446, R481). One that passes has an endpoint map R6, R7
and R210 admit, with a notification endpoint that takes a notification in one packet (D4), the device descriptor
R203 asks for, the configuration block R202, R204, R205 and R210-R213 ask for, the language IDs R209 asks for, and
its regions below 2^32 and pairwise disjoint, no buffer at address 0 (R81). Which other ranges are checked is the
model's choice (log 23, log 36), and so are how R213's functional descriptors are (log 39) and which further
descriptors may stand in the block (log 42). -/
def Obligations.BuildChecksGateTheRun : Prop :=
  (∀ s : State, buildOk s.cfg = false → step s = .refused .configuration) ∧
  (∀ c : Params, buildOk c = true →
    let d := c.deviceDesc
    let g := c.langidDesc
    (MapLegal c ∧ ∀ e, HasRole c .interrupt .tx c.ifCdcComm e → 10 ≤ mps c e) ∧
    (d.length = 18 ∧ fld d 0 = 18 ∧ fld d 1 = 0x01 ∧ fld d 7 = c.ep0Mps ∧ fld d 17 = 1 ∧
      (fld d 14 = 0 ∨ fld d 14 = 1) ∧ (fld d 15 = 0 ∨ fld d 15 = 2) ∧ (fld d 16 = 0 ∨ fld d 16 = 3)) ∧
    (∃ h ds, ConfigBlock c h ds) ∧
    (g.length % 2 = 0 ∧ 4 ≤ g.length ∧ g.length ≤ 255 ∧ fld g 0 = g.length ∧ fld g 1 = 0x03) ∧
    (∀ r ∈ ramRegions c, 0 < r.base) ∧
    (∀ r ∈ ramRegions c ++ descRegions c, r.base + r.size ≤ 2 ^ 32) ∧
    (ramRegions c ++ descRegions c).Pairwise fun r q =>
      ∀ a, ¬ (InRange a r.base r.size ∧ InRange a q.base q.size))

/-- A step writes no parameter of the configuration and no descriptor byte: in canonical memory a descriptor's bytes
read as the configuration gives them, before and after. The hooks and the self-powered flag keep their values,
INIT apart (R35, R51, R83, R200). That ROM reads so is how the model places it (log 14). -/
def Obligations.ConfigurationIsConstant : Prop :=
  ∀ (s t : State), memWf s = true → step s = .next t →
    t.cfg = s.cfg ∧
    (nextLine s ≠ some .init → t.hooks = s.hooks ∧ t.dev.selfPowered = s.dev.selfPowered) ∧
    (∀ i, i < s.cfg.deviceDesc.length →
      some (peek t (s.cfg.devDescAddr.toNat + i)) = s.cfg.deviceDesc[i]?) ∧
    (∀ i, i < s.cfg.configDesc.length →
      some (peek t (s.cfg.cfgDescAddr.toNat + i)) = s.cfg.configDesc[i]?) ∧
    (∀ i, i < s.cfg.langidDesc.length →
      some (peek t (s.cfg.langidAddr.toNat + i)) = s.cfg.langidDesc[i]?)

/-- The invariants hold after power-on in every configuration, and so at the reset state, which is the example
configuration's (log 3) (R36, R44, R55, R57, R480). -/
def Obligations.InvariantsHoldAtPowerOn : Prop :=
  (∀ c : Params, let s := State.powerOn c
    memWf s = true ∧ DevInv s ∧ EnabledInv s ∧ SlotInv s ∧ ArmInv s) ∧
  memWf State.reset = true ∧ buildOk State.reset.cfg = true ∧ DevInv State.reset ∧
    EnabledInv State.reset ∧ SlotInv State.reset ∧ ArmInv State.reset

/-- Every step keeps memory canonical: addresses rising, no byte listed that an unlisted address reads as, no
descriptor address listed (R80, R83). The form is the model's choice (log 8). -/
def Obligations.MemoryStaysCanonical : Prop :=
  ∀ (s t : State), memWf s = true → step s = .next t → memWf t = true

/-- A byte changes in a step only if the step may write it: the block's buffers, the scratch and staging buffers,
EP0's OUT destination below the length left, an armed RX slot's buffer below its count, or the client's own
write (R90, R163). -/
def Obligations.WritesAreBounded : Prop :=
  ∀ (s t : State), memWf s = true → step s = .next t →
    ∀ a, peek t a ≠ peek s a → WritableBy s a

/-- Every step keeps the device invariants: configuration 1 exactly in Configured and Suspended, address 0 in
Default and not 0 from Addressed on, activity off exactly in Suspended, and the other endpoints enabled exactly
while configured, so that some other endpoint is enabled exactly while configured (R36, R57). -/
def Obligations.DeviceInvariantsKept : Prop :=
  ∀ (s t : State), DevInv s → EnabledInv s → step s = .next t → DevInv t ∧ EnabledInv t

/-- Every step keeps the slot invariants: at most one owned slot per endpoint and direction, the selector's; the
SIE's pointer at the selector, or across from it while a completion is queued; at most one queued; stall bits only
in Stall; no endpoint in a phase it has not (R44, R31, R60). -/
def Obligations.SlotInvariantKept : Prop :=
  ∀ (s t : State), DevInv s → EnabledInv s → SlotInv s → step s = .next t → SlotInv t

/-- Every step keeps the arming invariants: EP0's RX slot always armed for the next SETUP once the device has been
reset, every active endpoint armed or with a completion queued, armed slots at the cursor, the stall pattern of
a halted endpoint (R55, R56, R58). -/
def Obligations.ArmingInvariantKept : Prop :=
  ∀ (s t : State), SlotInv s → ArmInv s → step s = .next t → ArmInv t

/-- Under the invariants a SETUP of 8 bytes at the device's address is always accepted after the first bus reset,
while the device is active, no EP0 RX completion waits and the queue has room, EP0 halted or in the middle of a
transfer or not (R288, R442, R162). -/
def Obligations.SetupIsAlwaysAccepted : Prop :=
  ∀ (s : State) (b0 b1 b2 b3 b4 b5 b6 b7 : Byte), buildOk s.cfg = true → memWf s = true →
    SlotInv s → ArmInv s → s.dev.conn ≠ .attached → s.dev.epActive = true →
    (∀ c ∈ s.sie.tokq, ¬ (c.ep = 0 ∧ c.dir = .rx)) → s.sie.tokq.length < s.cfg.tokqDepth →
    ∃ t, runLine (.hSetup s.dev.addr 0 [b0, b1, b2, b3, b4, b5, b6, b7]) s = .next t ∧
      t.sie.answer = .ack ∧ t.sie.tokenSuspended = true ∧
      t.sie.tokq = s.sie.tokq ++ [⟨0, .rx, s.ep.ep0.odd.rx⟩] ∧
      setupAt t (bufAddr s.cfg .ep0 .rx s.ep.ep0.odd.rx).toNat =
        Setup.ofBytes b0 b1 b2 b3 b4 b5 b6 b7

/-- Faults are sticky: but for INIT no step removes a reason, a bus reset neither; and under the slot invariants no
step raises F4, every queued completion being one a rule expects, and no step arms a slot the SIE owns, so that the
model's flag of R490 (log 37) never rises (R444, R52, R372, R490). -/
def Obligations.FaultsAreSticky : Prop :=
  ∀ (s t : State), step s = .next t → nextLine s ≠ some .init →
    (∀ r, hasReason s.fault r = true → hasReason t.fault r = true) ∧
    (∃ l, t.out = s.out ++ l) ∧
    (SlotInv s → t.fault.f4 = s.fault.f4 ∧ t.ownedWrite = s.ownedWrite)

/-- The connection state moves only along the edges of R379, INIT apart, each with its writes: Attached is left only
for Default, by a bus reset; Suspended is reached only from Configured and left only for Configured, or for
Default by a bus reset (R379, R380). -/
def Obligations.ConnectionMoves : Prop :=
  ∀ (s t : State), DevInv s → step s = .next t → nextLine s ≠ some .init →
    ConnMove s.dev t.dev ∧
    (t.dev.conn ≠ s.dev.conn → s.dev.conn = .attached ∨ s.dev.conn = .suspended ∧ t.dev.conn = .default →
      (pending s).getLsbD 0 = true)

/-- EP0's phase changes only in a dispatcher step that serves a bus reset or a completion, INIT apart; with no SETUP
queued and no bus reset pending it moves only along R286, and so never leaves Stall; a dispatch with a bus
reset pending and enabled ends in Idle (R286, R290, R373). -/
def Obligations.Ep0PhaseMoves : Prop :=
  ∀ (s t : State), step s = .next t → nextLine s ≠ some .init →
    (t.ep.ep0.phase ≠ s.ep.ep0.phase →
      DispatchNext s ∧
      ((pending s).getLsbD 0 = true ∨ (pending s).getLsbD 3 = true)) ∧
    ((pending s).getLsbD 0 = true → DispatchNext s → t.ep.ep0.phase = .idle) ∧
    ((pending s).getLsbD 0 = false →
      (∀ c ∈ s.sie.tokq, c.ep = 0 → c.dir = .rx → (slot s .ep0 .rx c.odd).pid ≠ 0xD) →
      t.ep.ep0.phase ∈ Ep0Moves s.ep.ep0.phase)

/-! ## Encodings (30_encoding.md) -/

/-- Every well-formed operation decodes from its encoding, every operand at every value (R111, R114, R127, R133). The
byte forms of the CMD, EVENT and COMPLETION rows are the model's choice (log 4, log 5, log 40). -/
def Obligations.DecodeEncodeRoundTrip : Prop :=
  ∀ i : Instr, i.wf = true → decode i.row.format (encode i) = .ok i

/-- Every setup packet decodes to the operation of the table row that matches its key with the most mask bits, and
that operation encodes to the packet; a completion word decodes to a row that matches it, an EP0 row before the
others, and to none only if no row matches; the event serviced is the first pending one in the order USBRST,
TOKDNE, RESUME, STALL, SOFTOK, SLEEP, ERROR, where TOKDNE is pending exactly while the queue is not empty (R114,
R127, R138, R371, R45). -/
def Obligations.OperationsDecodeByTheirRows : Prop :=
  (∀ p : Setup, let i := decodeSetup p
    i.wf = true ∧ i.row ∈ opcodeTable ∧ i.row.format = .setup ∧ encode i = p.bytes ∧
    p.key &&& i.row.mask = i.row.pattern ∧
    ∀ r ∈ opcodeTable, r.format = .setup → p.key &&& r.mask = r.pattern →
      r = i.row ∨ (r.mask &&& i.row.mask = r.mask ∧ r.mask ≠ i.row.mask)) ∧
  (∀ w : BitVec 12,
    (∀ i, decodeCompletion w = some i → i.row ∈ completionRows ∧
      w.setWidth 32 &&& i.row.mask = i.row.pattern ∧ (w.extractLsb' 4 4 = 0 → i.row.mask = 0xFF8)) ∧
    (decodeCompletion w = none → ∀ r ∈ completionRows, w.setWidth 32 &&& r.mask ≠ r.pattern)) ∧
  (∀ (p : BitVec 8) (g : Bool), decodeEvent p g =
    ([(0, Instr.evUsbrst), (3, .evTokdne), (5, .evResume g), (7, .evStall), (2, .evSoftok), (4, .evSleep),
      (1, .evError)].find? fun x => p.getLsbD x.1).map Prod.snd) ∧
  (∀ (s : State) (n : Nat), n < 8 → (pending s).getLsbD n =
    ((if n = 3 then decide (s.sie.tokq ≠ []) else s.dev.istat.getLsbD n) && s.dev.inten.getLsbD n))

/-- Words written out from the spec's encodings decode to the operations they stand for: SET_ADDRESS(5),
GET_DESCRIPTOR(STRING 3), SET_LINE_CODING, a vendor request, an IN completion of EP2's slot 1, the RESUME event,
startTx(2, 100, 0x20000100) (R111, R116, R120, R127, R129, R133). The byte forms of the last three are the
model's choice (log 4, log 5, log 40). -/
def Obligations.WrittenWordsDecode : Prop :=
  decode .setup [0x00, 0x05, 0x05, 0x00, 0x00, 0x00, 0x00, 0x00] = .ok (.setAddress 5 0 0) ∧
  decode .setup [0x80, 0x06, 0x03, 0x03, 0x09, 0x04, 0xFF, 0x00] = .ok (.getDescriptorString 3 0x409 255) ∧
  decode .setup [0x21, 0x20, 0x00, 0x00, 0x01, 0x00, 0x07, 0x00] = .ok (.cdcSetLineCoding 0 1 7) ∧
  decode .setup [0xC0, 0x77, 0x34, 0x12, 0x78, 0x56, 0x10, 0x00] =
    .ok (.vendorRequest 0xC0 0x77 0x1234 0x5678 16) ∧
  decode .completion [0x2C, 0x09] = .ok (.tokInEpn 2 true) ∧
  decode .event [0x20, 0x00] = .ok (.evResume true) ∧
  decode .cmd [0x01, 0x02, 0x64, 0x00, 0x00, 0x01, 0x00, 0x20] = .ok (.startTx 2 100 0x20000100)
end

