-- ==== Sys2Proof/Laws/Bank.lean ====
section
/-! SUPPORT. Reading a bank, a direction pair, a half pair and a slot after writing one. -/

namespace Sys2Proof

theorem EpBank.get_set {α : Type} (b : EpBank α) (e f : EpId) (v : α) :
    (b.set e v).get f = if f = e then v else b.get f := by
  cases e <;> cases f <;> rfl

@[simp] theorem EpBank.get_set_self {α : Type} (b : EpBank α) (e : EpId) (v : α) :
    (b.set e v).get e = v := by cases e <;> rfl

@[simp] theorem EpBank.get_tabulate {α : Type} (f : EpId → α) (e : EpId) :
    (EpBank.tabulate f).get e = f e := by cases e <;> rfl

@[simp] theorem EpBank.set_set {α : Type} (b : EpBank α) (e : EpId) (v w : α) :
    (b.set e v).set e w = b.set e w := by cases e <;> rfl

@[simp] theorem EpBank.set_get {α : Type} (b : EpBank α) (e : EpId) : b.set e (b.get e) = b := by
  cases e <;> rfl

@[simp] theorem EpBank.tabulate_get {α : Type} (b : EpBank α) : EpBank.tabulate b.get = b := rfl

theorem EpBank.ext_get {α : Type} {b c : EpBank α} (h : ∀ e, b.get e = c.get e) : b = c := by
  rw [← EpBank.tabulate_get b, ← EpBank.tabulate_get c, funext h]

theorem DirPair.get_set {α : Type} (p : DirPair α) (d f : Dir) (v : α) :
    (p.set d v).get f = if f = d then v else p.get f := by
  cases d <;> cases f <;> rfl

@[simp] theorem DirPair.get_set_self {α : Type} (p : DirPair α) (d : Dir) (v : α) :
    (p.set d v).get d = v := by cases d <;> rfl

@[simp] theorem DirPair.set_set {α : Type} (p : DirPair α) (d : Dir) (v w : α) :
    (p.set d v).set d w = p.set d w := by cases d <;> rfl

theorem HalfPair.get_set {α : Type} (p : HalfPair α) (k j : Bool) (v : α) :
    (p.set k v).get j = if j = k then v else p.get j := by
  cases k <;> cases j <;> rfl

@[simp] theorem HalfPair.get_set_self {α : Type} (p : HalfPair α) (k : Bool) (v : α) :
    (p.set k v).get k = v := by cases k <;> rfl

@[simp] theorem HalfPair.set_set {α : Type} (p : HalfPair α) (k : Bool) (v w : α) :
    (p.set k v).set k w = p.set k w := by cases k <;> rfl

@[simp] theorem EpId.ofNat?_num (e : EpId) : EpId.ofNat? e.num = some e := by cases e <;> rfl

theorem EpId.num_lt (e : EpId) : e.num < 16 := by cases e <;> decide

theorem EpId.num_inj {e f : EpId} (h : e.num = f.num) : e = f := by
  have := EpId.ofNat?_num e
  rw [h, EpId.ofNat?_num] at this
  exact (Option.some.inj this).symm

theorem EpId.ofNat?_some {n : Nat} {e : EpId} (h : EpId.ofNat? n = some e) : e.num = n := by
  unfold EpId.ofNat? at h
  split at h <;> cases h <;> rfl

/-- A number of 4 bits has an endpoint number. -/
theorem EpId.ofNat?_of_lt {n : Nat} (h : n < 16) : ∃ e, EpId.ofNat? n = some e ∧ e.num = n := by
  interval_cases n <;> exact ⟨_, rfl, rfl⟩

namespace Machine

theorem slots_setSlots (s : State) (e f : EpId) (d g : Dir) (p : HalfPair Slot) :
    slots (setSlots s e d p) f g = if f = e ∧ g = d then p else slots s f g := by
  simp only [slots, setSlots, EpBank.get_set]
  by_cases h : f = e
  · subst h; simp [DirPair.get_set]
  · simp [h]

/-- Reading a slot after writing one (R42). -/
theorem slot_setSlot (s : State) (e f : EpId) (d g : Dir) (k j : Bool) (x : Slot) :
    slot (setSlot s e d k x) f g j = if f = e ∧ g = d ∧ j = k then x else slot s f g j := by
  simp only [slot, setSlot, slots_setSlots]
  by_cases h : f = e ∧ g = d
  · obtain ⟨rfl, rfl⟩ := h; simp [HalfPair.get_set]
  · rw [if_neg h, if_neg (fun hx => h ⟨hx.1, hx.2.1⟩)]

/-- Reading a slot after taking both slots of (e, d) back. -/
theorem slot_reclaim (s : State) (e f : EpId) (d g : Dir) (st j : Bool) :
    slot (reclaim s e d st) f g j =
      if f = e ∧ g = d then takeBack st (slot s f g j) else slot s f g j := by
  simp only [slot, reclaim, slots_setSlots]
  by_cases h : f = e ∧ g = d
  · obtain ⟨rfl, rfl⟩ := h; cases j <;> simp [HalfPair.get]
  · rw [if_neg h, if_neg h]

/-- The endpoint of a number is the one of that number, if it is below `NUM_EP` (R6). -/
theorem endpointOf_some {c : Params} {n : Nat} {e : EpId} :
    endpointOf c n = some e ↔ n = e.num ∧ e.num < c.numEp := by
  unfold endpointOf
  constructor
  · intro h
    split at h
    · next hn => have := EpId.ofNat?_some h; omega
    · cases h
  · rintro ⟨rfl, h⟩
    rw [if_pos h, EpId.ofNat?_num]

/-- No endpoint has the number (R161(c), R233, R335). -/
theorem endpointOf_none {c : Params} {n : Nat} :
    endpointOf c n = none ↔ ∀ e : EpId, n = e.num → c.numEp ≤ e.num := by
  constructor
  · intro h e he
    by_contra hc
    rw [endpointOf_some.2 ⟨he, by omega⟩] at h
    cases h
  · intro h
    cases hc : endpointOf c n with
    | none => rfl
    | some e => have := endpointOf_some.1 hc; have := h e this.1; omega

theorem mem_allEps (e : EpId) : e ∈ allEps := by cases e <;> decide

/-- The endpoints of the block are those below `NUM_EP` (R6). -/
theorem mem_endpoints {c : Params} {e : EpId} : e ∈ endpoints c ↔ e.num < c.numEp := by
  simp [endpoints, onMap, mem_allEps]

/-- The endpoints of `for e in 1 … NUM_EP-1` (R329). -/
theorem mem_nonControl {c : Params} {e : EpId} : e ∈ nonControl c ↔ e ≠ .ep0 ∧ e.num < c.numEp := by
  simp [nonControl, mem_endpoints, and_comm]

end Machine

end Sys2Proof
end

