-- ==== Sys2Proof/Laws/State.lean ====
section
/-! SUPPORT. What each updater of the state leaves alone, field by field, and what the plain ones write:
true by rfl and simp lemmas, so that no proof unfolds a record update. -/

namespace Sys2Proof.Machine

variable (s : State)

@[simp] theorem setEp_cfg (e : EpId) (x : EndpointState) : (setEp s e x).cfg = s.cfg := rfl
@[simp] theorem setEp_dev (e : EpId) (x : EndpointState) : (setEp s e x).dev = s.dev := rfl
@[simp] theorem setEp_ep (e : EpId) (x : EndpointState) : (setEp s e x).ep = s.ep.set e x := rfl
@[simp] theorem setEp_bdt (e : EpId) (x : EndpointState) : (setEp s e x).bdt = s.bdt := rfl
@[simp] theorem setEp_sie (e : EpId) (x : EndpointState) : (setEp s e x).sie = s.sie := rfl
@[simp] theorem setEp_setup (e : EpId) (x : EndpointState) : (setEp s e x).setup = s.setup := rfl
@[simp] theorem setEp_mem (e : EpId) (x : EndpointState) : (setEp s e x).mem = s.mem := rfl
@[simp] theorem setEp_out (e : EpId) (x : EndpointState) : (setEp s e x).out = s.out := rfl
@[simp] theorem setEp_hooks (e : EpId) (x : EndpointState) : (setEp s e x).hooks = s.hooks := rfl
@[simp] theorem setEp_fault (e : EpId) (x : EndpointState) : (setEp s e x).fault = s.fault := rfl
@[simp] theorem setEp_backend (e : EpId) (x : EndpointState) : (setEp s e x).backend = s.backend := rfl
@[simp] theorem setEp_client (e : EpId) (x : EndpointState) : (setEp s e x).client = s.client := rfl
@[simp] theorem setEp_lines (e : EpId) (x : EndpointState) : (setEp s e x).lines = s.lines := rfl
@[simp] theorem setEp_draws (e : EpId) (x : EndpointState) : (setEp s e x).draws = s.draws := rfl
@[simp] theorem setEp_ownedWrite (e : EpId) (x : EndpointState) : (setEp s e x).ownedWrite = s.ownedWrite := rfl

@[simp] theorem setSlots_cfg (e : EpId) (d : Dir) (p : HalfPair Slot) : (setSlots s e d p).cfg = s.cfg := rfl
@[simp] theorem setSlots_dev (e : EpId) (d : Dir) (p : HalfPair Slot) : (setSlots s e d p).dev = s.dev := rfl
@[simp] theorem setSlots_ep (e : EpId) (d : Dir) (p : HalfPair Slot) : (setSlots s e d p).ep = s.ep := rfl
@[simp] theorem setSlots_bdt (e : EpId) (d : Dir) (p : HalfPair Slot) : (setSlots s e d p).bdt = s.bdt.set e ((s.bdt.get e).set d p) := rfl
@[simp] theorem setSlots_sie (e : EpId) (d : Dir) (p : HalfPair Slot) : (setSlots s e d p).sie = s.sie := rfl
@[simp] theorem setSlots_setup (e : EpId) (d : Dir) (p : HalfPair Slot) : (setSlots s e d p).setup = s.setup := rfl
@[simp] theorem setSlots_mem (e : EpId) (d : Dir) (p : HalfPair Slot) : (setSlots s e d p).mem = s.mem := rfl
@[simp] theorem setSlots_out (e : EpId) (d : Dir) (p : HalfPair Slot) : (setSlots s e d p).out = s.out := rfl
@[simp] theorem setSlots_hooks (e : EpId) (d : Dir) (p : HalfPair Slot) : (setSlots s e d p).hooks = s.hooks := rfl
@[simp] theorem setSlots_fault (e : EpId) (d : Dir) (p : HalfPair Slot) : (setSlots s e d p).fault = s.fault := rfl
@[simp] theorem setSlots_backend (e : EpId) (d : Dir) (p : HalfPair Slot) : (setSlots s e d p).backend = s.backend := rfl
@[simp] theorem setSlots_client (e : EpId) (d : Dir) (p : HalfPair Slot) : (setSlots s e d p).client = s.client := rfl
@[simp] theorem setSlots_lines (e : EpId) (d : Dir) (p : HalfPair Slot) : (setSlots s e d p).lines = s.lines := rfl
@[simp] theorem setSlots_draws (e : EpId) (d : Dir) (p : HalfPair Slot) : (setSlots s e d p).draws = s.draws := rfl
@[simp] theorem setSlots_ownedWrite (e : EpId) (d : Dir) (p : HalfPair Slot) : (setSlots s e d p).ownedWrite = s.ownedWrite := rfl

@[simp] theorem setSlot_cfg (e : EpId) (d : Dir) (k : Bool) (x : Slot) : (setSlot s e d k x).cfg = s.cfg := rfl
@[simp] theorem setSlot_dev (e : EpId) (d : Dir) (k : Bool) (x : Slot) : (setSlot s e d k x).dev = s.dev := rfl
@[simp] theorem setSlot_ep (e : EpId) (d : Dir) (k : Bool) (x : Slot) : (setSlot s e d k x).ep = s.ep := rfl
@[simp] theorem setSlot_bdt (e : EpId) (d : Dir) (k : Bool) (x : Slot) : (setSlot s e d k x).bdt = s.bdt.set e ((s.bdt.get e).set d ((slots s e d).set k x)) := rfl
@[simp] theorem setSlot_sie (e : EpId) (d : Dir) (k : Bool) (x : Slot) : (setSlot s e d k x).sie = s.sie := rfl
@[simp] theorem setSlot_setup (e : EpId) (d : Dir) (k : Bool) (x : Slot) : (setSlot s e d k x).setup = s.setup := rfl
@[simp] theorem setSlot_mem (e : EpId) (d : Dir) (k : Bool) (x : Slot) : (setSlot s e d k x).mem = s.mem := rfl
@[simp] theorem setSlot_out (e : EpId) (d : Dir) (k : Bool) (x : Slot) : (setSlot s e d k x).out = s.out := rfl
@[simp] theorem setSlot_hooks (e : EpId) (d : Dir) (k : Bool) (x : Slot) : (setSlot s e d k x).hooks = s.hooks := rfl
@[simp] theorem setSlot_fault (e : EpId) (d : Dir) (k : Bool) (x : Slot) : (setSlot s e d k x).fault = s.fault := rfl
@[simp] theorem setSlot_backend (e : EpId) (d : Dir) (k : Bool) (x : Slot) : (setSlot s e d k x).backend = s.backend := rfl
@[simp] theorem setSlot_client (e : EpId) (d : Dir) (k : Bool) (x : Slot) : (setSlot s e d k x).client = s.client := rfl
@[simp] theorem setSlot_lines (e : EpId) (d : Dir) (k : Bool) (x : Slot) : (setSlot s e d k x).lines = s.lines := rfl
@[simp] theorem setSlot_draws (e : EpId) (d : Dir) (k : Bool) (x : Slot) : (setSlot s e d k x).draws = s.draws := rfl
@[simp] theorem setSlot_ownedWrite (e : EpId) (d : Dir) (k : Bool) (x : Slot) : (setSlot s e d k x).ownedWrite = s.ownedWrite := rfl

@[simp] theorem setDev_cfg (d : DeviceState) : (setDev s d).cfg = s.cfg := rfl
@[simp] theorem setDev_dev (d : DeviceState) : (setDev s d).dev = d := rfl
@[simp] theorem setDev_ep (d : DeviceState) : (setDev s d).ep = s.ep := rfl
@[simp] theorem setDev_bdt (d : DeviceState) : (setDev s d).bdt = s.bdt := rfl
@[simp] theorem setDev_sie (d : DeviceState) : (setDev s d).sie = s.sie := rfl
@[simp] theorem setDev_setup (d : DeviceState) : (setDev s d).setup = s.setup := rfl
@[simp] theorem setDev_mem (d : DeviceState) : (setDev s d).mem = s.mem := rfl
@[simp] theorem setDev_out (d : DeviceState) : (setDev s d).out = s.out := rfl
@[simp] theorem setDev_hooks (d : DeviceState) : (setDev s d).hooks = s.hooks := rfl
@[simp] theorem setDev_fault (d : DeviceState) : (setDev s d).fault = s.fault := rfl
@[simp] theorem setDev_backend (d : DeviceState) : (setDev s d).backend = s.backend := rfl
@[simp] theorem setDev_client (d : DeviceState) : (setDev s d).client = s.client := rfl
@[simp] theorem setDev_lines (d : DeviceState) : (setDev s d).lines = s.lines := rfl
@[simp] theorem setDev_draws (d : DeviceState) : (setDev s d).draws = s.draws := rfl
@[simp] theorem setDev_ownedWrite (d : DeviceState) : (setDev s d).ownedWrite = s.ownedWrite := rfl

@[simp] theorem setSie_cfg (x : Sie) : (setSie s x).cfg = s.cfg := rfl
@[simp] theorem setSie_dev (x : Sie) : (setSie s x).dev = s.dev := rfl
@[simp] theorem setSie_ep (x : Sie) : (setSie s x).ep = s.ep := rfl
@[simp] theorem setSie_bdt (x : Sie) : (setSie s x).bdt = s.bdt := rfl
@[simp] theorem setSie_sie (x : Sie) : (setSie s x).sie = x := rfl
@[simp] theorem setSie_setup (x : Sie) : (setSie s x).setup = s.setup := rfl
@[simp] theorem setSie_mem (x : Sie) : (setSie s x).mem = s.mem := rfl
@[simp] theorem setSie_out (x : Sie) : (setSie s x).out = s.out := rfl
@[simp] theorem setSie_hooks (x : Sie) : (setSie s x).hooks = s.hooks := rfl
@[simp] theorem setSie_fault (x : Sie) : (setSie s x).fault = s.fault := rfl
@[simp] theorem setSie_backend (x : Sie) : (setSie s x).backend = s.backend := rfl
@[simp] theorem setSie_client (x : Sie) : (setSie s x).client = s.client := rfl
@[simp] theorem setSie_lines (x : Sie) : (setSie s x).lines = s.lines := rfl
@[simp] theorem setSie_draws (x : Sie) : (setSie s x).draws = s.draws := rfl
@[simp] theorem setSie_ownedWrite (x : Sie) : (setSie s x).ownedWrite = s.ownedWrite := rfl

@[simp] theorem emit_cfg (v : OutEvent) : (emit s v).cfg = s.cfg := rfl
@[simp] theorem emit_dev (v : OutEvent) : (emit s v).dev = s.dev := rfl
@[simp] theorem emit_ep (v : OutEvent) : (emit s v).ep = s.ep := rfl
@[simp] theorem emit_bdt (v : OutEvent) : (emit s v).bdt = s.bdt := rfl
@[simp] theorem emit_sie (v : OutEvent) : (emit s v).sie = s.sie := rfl
@[simp] theorem emit_setup (v : OutEvent) : (emit s v).setup = s.setup := rfl
@[simp] theorem emit_mem (v : OutEvent) : (emit s v).mem = s.mem := rfl
@[simp] theorem emit_out (v : OutEvent) : (emit s v).out = s.out ++ [v] := rfl
@[simp] theorem emit_hooks (v : OutEvent) : (emit s v).hooks = s.hooks := rfl
@[simp] theorem emit_fault (v : OutEvent) : (emit s v).fault = s.fault := rfl
@[simp] theorem emit_backend (v : OutEvent) : (emit s v).backend = s.backend := rfl
@[simp] theorem emit_client (v : OutEvent) : (emit s v).client = s.client := rfl
@[simp] theorem emit_lines (v : OutEvent) : (emit s v).lines = s.lines := rfl
@[simp] theorem emit_draws (v : OutEvent) : (emit s v).draws = s.draws := rfl
@[simp] theorem emit_ownedWrite (v : OutEvent) : (emit s v).ownedWrite = s.ownedWrite := rfl

@[simp] theorem sieResetDir_cfg (e : EpId) (d : Dir) : (sieResetDir s e d).cfg = s.cfg := rfl
@[simp] theorem sieResetDir_dev (e : EpId) (d : Dir) : (sieResetDir s e d).dev = s.dev := rfl
@[simp] theorem sieResetDir_ep (e : EpId) (d : Dir) : (sieResetDir s e d).ep = s.ep := rfl
@[simp] theorem sieResetDir_bdt (e : EpId) (d : Dir) : (sieResetDir s e d).bdt = s.bdt := rfl
@[simp] theorem sieResetDir_setup (e : EpId) (d : Dir) : (sieResetDir s e d).setup = s.setup := rfl
@[simp] theorem sieResetDir_mem (e : EpId) (d : Dir) : (sieResetDir s e d).mem = s.mem := rfl
@[simp] theorem sieResetDir_out (e : EpId) (d : Dir) : (sieResetDir s e d).out = s.out := rfl
@[simp] theorem sieResetDir_hooks (e : EpId) (d : Dir) : (sieResetDir s e d).hooks = s.hooks := rfl
@[simp] theorem sieResetDir_fault (e : EpId) (d : Dir) : (sieResetDir s e d).fault = s.fault := rfl
@[simp] theorem sieResetDir_backend (e : EpId) (d : Dir) : (sieResetDir s e d).backend = s.backend := rfl
@[simp] theorem sieResetDir_client (e : EpId) (d : Dir) : (sieResetDir s e d).client = s.client := rfl
@[simp] theorem sieResetDir_lines (e : EpId) (d : Dir) : (sieResetDir s e d).lines = s.lines := rfl
@[simp] theorem sieResetDir_draws (e : EpId) (d : Dir) : (sieResetDir s e d).draws = s.draws := rfl
@[simp] theorem sieResetDir_ownedWrite (e : EpId) (d : Dir) : (sieResetDir s e d).ownedWrite = s.ownedWrite := rfl

@[simp] theorem sieResetEndpoint_cfg (e : EpId) : (sieResetEndpoint s e).cfg = s.cfg := rfl
@[simp] theorem sieResetEndpoint_dev (e : EpId) : (sieResetEndpoint s e).dev = s.dev := rfl
@[simp] theorem sieResetEndpoint_ep (e : EpId) : (sieResetEndpoint s e).ep = s.ep := rfl
@[simp] theorem sieResetEndpoint_bdt (e : EpId) : (sieResetEndpoint s e).bdt = s.bdt := rfl
@[simp] theorem sieResetEndpoint_setup (e : EpId) : (sieResetEndpoint s e).setup = s.setup := rfl
@[simp] theorem sieResetEndpoint_mem (e : EpId) : (sieResetEndpoint s e).mem = s.mem := rfl
@[simp] theorem sieResetEndpoint_out (e : EpId) : (sieResetEndpoint s e).out = s.out := rfl
@[simp] theorem sieResetEndpoint_hooks (e : EpId) : (sieResetEndpoint s e).hooks = s.hooks := rfl
@[simp] theorem sieResetEndpoint_fault (e : EpId) : (sieResetEndpoint s e).fault = s.fault := rfl
@[simp] theorem sieResetEndpoint_backend (e : EpId) : (sieResetEndpoint s e).backend = s.backend := rfl
@[simp] theorem sieResetEndpoint_client (e : EpId) : (sieResetEndpoint s e).client = s.client := rfl
@[simp] theorem sieResetEndpoint_lines (e : EpId) : (sieResetEndpoint s e).lines = s.lines := rfl
@[simp] theorem sieResetEndpoint_draws (e : EpId) : (sieResetEndpoint s e).draws = s.draws := rfl
@[simp] theorem sieResetEndpoint_ownedWrite (e : EpId) : (sieResetEndpoint s e).ownedWrite = s.ownedWrite := rfl

@[simp] theorem sieResetAll_cfg : (sieResetAll s).cfg = s.cfg := rfl
@[simp] theorem sieResetAll_dev : (sieResetAll s).dev = s.dev := rfl
@[simp] theorem sieResetAll_ep : (sieResetAll s).ep = s.ep := rfl
@[simp] theorem sieResetAll_bdt : (sieResetAll s).bdt = s.bdt := rfl
@[simp] theorem sieResetAll_setup : (sieResetAll s).setup = s.setup := rfl
@[simp] theorem sieResetAll_mem : (sieResetAll s).mem = s.mem := rfl
@[simp] theorem sieResetAll_out : (sieResetAll s).out = s.out := rfl
@[simp] theorem sieResetAll_hooks : (sieResetAll s).hooks = s.hooks := rfl
@[simp] theorem sieResetAll_fault : (sieResetAll s).fault = s.fault := rfl
@[simp] theorem sieResetAll_backend : (sieResetAll s).backend = s.backend := rfl
@[simp] theorem sieResetAll_client : (sieResetAll s).client = s.client := rfl
@[simp] theorem sieResetAll_lines : (sieResetAll s).lines = s.lines := rfl
@[simp] theorem sieResetAll_draws : (sieResetAll s).draws = s.draws := rfl
@[simp] theorem sieResetAll_ownedWrite : (sieResetAll s).ownedWrite = s.ownedWrite := rfl

@[simp] theorem sieReleaseTokens_cfg : (sieReleaseTokens s).cfg = s.cfg := rfl
@[simp] theorem sieReleaseTokens_dev : (sieReleaseTokens s).dev = s.dev := rfl
@[simp] theorem sieReleaseTokens_ep : (sieReleaseTokens s).ep = s.ep := rfl
@[simp] theorem sieReleaseTokens_bdt : (sieReleaseTokens s).bdt = s.bdt := rfl
@[simp] theorem sieReleaseTokens_sie : (sieReleaseTokens s).sie = { s.sie with tokenSuspended := false } := rfl
@[simp] theorem sieReleaseTokens_setup : (sieReleaseTokens s).setup = s.setup := rfl
@[simp] theorem sieReleaseTokens_mem : (sieReleaseTokens s).mem = s.mem := rfl
@[simp] theorem sieReleaseTokens_out : (sieReleaseTokens s).out = s.out := rfl
@[simp] theorem sieReleaseTokens_hooks : (sieReleaseTokens s).hooks = s.hooks := rfl
@[simp] theorem sieReleaseTokens_fault : (sieReleaseTokens s).fault = s.fault := rfl
@[simp] theorem sieReleaseTokens_backend : (sieReleaseTokens s).backend = s.backend := rfl
@[simp] theorem sieReleaseTokens_client : (sieReleaseTokens s).client = s.client := rfl
@[simp] theorem sieReleaseTokens_lines : (sieReleaseTokens s).lines = s.lines := rfl
@[simp] theorem sieReleaseTokens_draws : (sieReleaseTokens s).draws = s.draws := rfl
@[simp] theorem sieReleaseTokens_ownedWrite : (sieReleaseTokens s).ownedWrite = s.ownedWrite := rfl

@[simp] theorem raiseFault_cfg (r : FaultReason) : (raiseFault s r).cfg = s.cfg := rfl
@[simp] theorem raiseFault_dev (r : FaultReason) : (raiseFault s r).dev = s.dev := rfl
@[simp] theorem raiseFault_ep (r : FaultReason) : (raiseFault s r).ep = s.ep := rfl
@[simp] theorem raiseFault_bdt (r : FaultReason) : (raiseFault s r).bdt = s.bdt := rfl
@[simp] theorem raiseFault_sie (r : FaultReason) : (raiseFault s r).sie = s.sie := rfl
@[simp] theorem raiseFault_setup (r : FaultReason) : (raiseFault s r).setup = s.setup := rfl
@[simp] theorem raiseFault_mem (r : FaultReason) : (raiseFault s r).mem = s.mem := rfl
@[simp] theorem raiseFault_out (r : FaultReason) : (raiseFault s r).out = s.out ++ [.log (.fault r)] := rfl
@[simp] theorem raiseFault_hooks (r : FaultReason) : (raiseFault s r).hooks = s.hooks := rfl
@[simp] theorem raiseFault_fault (r : FaultReason) : (raiseFault s r).fault = addReason s.fault r := rfl
@[simp] theorem raiseFault_backend (r : FaultReason) : (raiseFault s r).backend = s.backend := rfl
@[simp] theorem raiseFault_client (r : FaultReason) : (raiseFault s r).client = s.client := rfl
@[simp] theorem raiseFault_lines (r : FaultReason) : (raiseFault s r).lines = s.lines := rfl
@[simp] theorem raiseFault_draws (r : FaultReason) : (raiseFault s r).draws = s.draws := rfl
@[simp] theorem raiseFault_ownedWrite (r : FaultReason) : (raiseFault s r).ownedWrite = s.ownedWrite := rfl

@[simp] theorem flagOwned_cfg (e : EpId) (d : Dir) (k : Bool) : (flagOwned s e d k).cfg = s.cfg := rfl
@[simp] theorem flagOwned_dev (e : EpId) (d : Dir) (k : Bool) : (flagOwned s e d k).dev = s.dev := rfl
@[simp] theorem flagOwned_ep (e : EpId) (d : Dir) (k : Bool) : (flagOwned s e d k).ep = s.ep := rfl
@[simp] theorem flagOwned_bdt (e : EpId) (d : Dir) (k : Bool) : (flagOwned s e d k).bdt = s.bdt := rfl
@[simp] theorem flagOwned_sie (e : EpId) (d : Dir) (k : Bool) : (flagOwned s e d k).sie = s.sie := rfl
@[simp] theorem flagOwned_setup (e : EpId) (d : Dir) (k : Bool) : (flagOwned s e d k).setup = s.setup := rfl
@[simp] theorem flagOwned_mem (e : EpId) (d : Dir) (k : Bool) : (flagOwned s e d k).mem = s.mem := rfl
@[simp] theorem flagOwned_out (e : EpId) (d : Dir) (k : Bool) : (flagOwned s e d k).out = s.out := rfl
@[simp] theorem flagOwned_hooks (e : EpId) (d : Dir) (k : Bool) : (flagOwned s e d k).hooks = s.hooks := rfl
@[simp] theorem flagOwned_fault (e : EpId) (d : Dir) (k : Bool) : (flagOwned s e d k).fault = s.fault := rfl
@[simp] theorem flagOwned_backend (e : EpId) (d : Dir) (k : Bool) : (flagOwned s e d k).backend = s.backend := rfl
@[simp] theorem flagOwned_client (e : EpId) (d : Dir) (k : Bool) : (flagOwned s e d k).client = s.client := rfl
@[simp] theorem flagOwned_lines (e : EpId) (d : Dir) (k : Bool) : (flagOwned s e d k).lines = s.lines := rfl
@[simp] theorem flagOwned_draws (e : EpId) (d : Dir) (k : Bool) : (flagOwned s e d k).draws = s.draws := rfl
@[simp] theorem flagOwned_ownedWrite (e : EpId) (d : Dir) (k : Bool) : (flagOwned s e d k).ownedWrite = (s.ownedWrite || (slot s e d k).own) := rfl

@[simp] theorem armSlot_cfg (e : EpId) (d : Dir) (k : Bool) (a : Addr) (n : Nat) (g : Bool) : (armSlot s e d k a n g).cfg = s.cfg := rfl
@[simp] theorem armSlot_dev (e : EpId) (d : Dir) (k : Bool) (a : Addr) (n : Nat) (g : Bool) : (armSlot s e d k a n g).dev = s.dev := rfl
@[simp] theorem armSlot_ep (e : EpId) (d : Dir) (k : Bool) (a : Addr) (n : Nat) (g : Bool) : (armSlot s e d k a n g).ep = s.ep := rfl
@[simp] theorem armSlot_sie (e : EpId) (d : Dir) (k : Bool) (a : Addr) (n : Nat) (g : Bool) : (armSlot s e d k a n g).sie = s.sie := rfl
@[simp] theorem armSlot_setup (e : EpId) (d : Dir) (k : Bool) (a : Addr) (n : Nat) (g : Bool) : (armSlot s e d k a n g).setup = s.setup := rfl
@[simp] theorem armSlot_mem (e : EpId) (d : Dir) (k : Bool) (a : Addr) (n : Nat) (g : Bool) : (armSlot s e d k a n g).mem = s.mem := rfl
@[simp] theorem armSlot_out (e : EpId) (d : Dir) (k : Bool) (a : Addr) (n : Nat) (g : Bool) : (armSlot s e d k a n g).out = s.out := rfl
@[simp] theorem armSlot_hooks (e : EpId) (d : Dir) (k : Bool) (a : Addr) (n : Nat) (g : Bool) : (armSlot s e d k a n g).hooks = s.hooks := rfl
@[simp] theorem armSlot_fault (e : EpId) (d : Dir) (k : Bool) (a : Addr) (n : Nat) (g : Bool) : (armSlot s e d k a n g).fault = s.fault := rfl
@[simp] theorem armSlot_backend (e : EpId) (d : Dir) (k : Bool) (a : Addr) (n : Nat) (g : Bool) : (armSlot s e d k a n g).backend = s.backend := rfl
@[simp] theorem armSlot_client (e : EpId) (d : Dir) (k : Bool) (a : Addr) (n : Nat) (g : Bool) : (armSlot s e d k a n g).client = s.client := rfl
@[simp] theorem armSlot_lines (e : EpId) (d : Dir) (k : Bool) (a : Addr) (n : Nat) (g : Bool) : (armSlot s e d k a n g).lines = s.lines := rfl
@[simp] theorem armSlot_draws (e : EpId) (d : Dir) (k : Bool) (a : Addr) (n : Nat) (g : Bool) : (armSlot s e d k a n g).draws = s.draws := rfl
@[simp] theorem armSlot_ownedWrite (e : EpId) (d : Dir) (k : Bool) (a : Addr) (n : Nat) (g : Bool) : (armSlot s e d k a n g).ownedWrite = (s.ownedWrite || (slot s e d k).own) := rfl

@[simp] theorem setPhase_cfg (e : EpId) (p : Phase) : (setPhase s e p).cfg = s.cfg := rfl
@[simp] theorem setPhase_dev (e : EpId) (p : Phase) : (setPhase s e p).dev = s.dev := rfl
@[simp] theorem setPhase_ep (e : EpId) (p : Phase) : (setPhase s e p).ep = s.ep.set e { s.ep.get e with phase := p } := rfl
@[simp] theorem setPhase_bdt (e : EpId) (p : Phase) : (setPhase s e p).bdt = s.bdt := rfl
@[simp] theorem setPhase_sie (e : EpId) (p : Phase) : (setPhase s e p).sie = s.sie := rfl
@[simp] theorem setPhase_setup (e : EpId) (p : Phase) : (setPhase s e p).setup = s.setup := rfl
@[simp] theorem setPhase_mem (e : EpId) (p : Phase) : (setPhase s e p).mem = s.mem := rfl
@[simp] theorem setPhase_out (e : EpId) (p : Phase) : (setPhase s e p).out = s.out := rfl
@[simp] theorem setPhase_hooks (e : EpId) (p : Phase) : (setPhase s e p).hooks = s.hooks := rfl
@[simp] theorem setPhase_fault (e : EpId) (p : Phase) : (setPhase s e p).fault = s.fault := rfl
@[simp] theorem setPhase_backend (e : EpId) (p : Phase) : (setPhase s e p).backend = s.backend := rfl
@[simp] theorem setPhase_client (e : EpId) (p : Phase) : (setPhase s e p).client = s.client := rfl
@[simp] theorem setPhase_lines (e : EpId) (p : Phase) : (setPhase s e p).lines = s.lines := rfl
@[simp] theorem setPhase_draws (e : EpId) (p : Phase) : (setPhase s e p).draws = s.draws := rfl
@[simp] theorem setPhase_ownedWrite (e : EpId) (p : Phase) : (setPhase s e p).ownedWrite = s.ownedWrite := rfl

@[simp] theorem armIn_cfg (e : EpId) : (armIn s e).cfg = s.cfg := rfl
@[simp] theorem armIn_dev (e : EpId) : (armIn s e).dev = s.dev := rfl
@[simp] theorem armIn_sie (e : EpId) : (armIn s e).sie = s.sie := rfl
@[simp] theorem armIn_setup (e : EpId) : (armIn s e).setup = s.setup := rfl
@[simp] theorem armIn_mem (e : EpId) : (armIn s e).mem = s.mem := rfl
@[simp] theorem armIn_out (e : EpId) : (armIn s e).out = s.out := rfl
@[simp] theorem armIn_hooks (e : EpId) : (armIn s e).hooks = s.hooks := rfl
@[simp] theorem armIn_fault (e : EpId) : (armIn s e).fault = s.fault := rfl
@[simp] theorem armIn_backend (e : EpId) : (armIn s e).backend = s.backend := rfl
@[simp] theorem armIn_client (e : EpId) : (armIn s e).client = s.client := rfl
@[simp] theorem armIn_lines (e : EpId) : (armIn s e).lines = s.lines := rfl
@[simp] theorem armIn_draws (e : EpId) : (armIn s e).draws = s.draws := rfl

@[simp] theorem armOut_cfg (e : EpId) : (armOut s e).cfg = s.cfg := rfl
@[simp] theorem armOut_dev (e : EpId) : (armOut s e).dev = s.dev := rfl
@[simp] theorem armOut_sie (e : EpId) : (armOut s e).sie = s.sie := rfl
@[simp] theorem armOut_setup (e : EpId) : (armOut s e).setup = s.setup := rfl
@[simp] theorem armOut_mem (e : EpId) : (armOut s e).mem = s.mem := rfl
@[simp] theorem armOut_out (e : EpId) : (armOut s e).out = s.out := rfl
@[simp] theorem armOut_hooks (e : EpId) : (armOut s e).hooks = s.hooks := rfl
@[simp] theorem armOut_fault (e : EpId) : (armOut s e).fault = s.fault := rfl
@[simp] theorem armOut_backend (e : EpId) : (armOut s e).backend = s.backend := rfl
@[simp] theorem armOut_client (e : EpId) : (armOut s e).client = s.client := rfl
@[simp] theorem armOut_lines (e : EpId) : (armOut s e).lines = s.lines := rfl
@[simp] theorem armOut_draws (e : EpId) : (armOut s e).draws = s.draws := rfl

@[simp] theorem armEp0Rx_cfg : (armEp0Rx s).cfg = s.cfg := rfl
@[simp] theorem armEp0Rx_dev : (armEp0Rx s).dev = s.dev := rfl
@[simp] theorem armEp0Rx_ep : (armEp0Rx s).ep = s.ep := rfl
@[simp] theorem armEp0Rx_sie : (armEp0Rx s).sie = s.sie := rfl
@[simp] theorem armEp0Rx_setup : (armEp0Rx s).setup = s.setup := rfl
@[simp] theorem armEp0Rx_mem : (armEp0Rx s).mem = s.mem := rfl
@[simp] theorem armEp0Rx_out : (armEp0Rx s).out = s.out := rfl
@[simp] theorem armEp0Rx_hooks : (armEp0Rx s).hooks = s.hooks := rfl
@[simp] theorem armEp0Rx_fault : (armEp0Rx s).fault = s.fault := rfl
@[simp] theorem armEp0Rx_backend : (armEp0Rx s).backend = s.backend := rfl
@[simp] theorem armEp0Rx_client : (armEp0Rx s).client = s.client := rfl
@[simp] theorem armEp0Rx_lines : (armEp0Rx s).lines = s.lines := rfl
@[simp] theorem armEp0Rx_draws : (armEp0Rx s).draws = s.draws := rfl

@[simp] theorem armEp0StatusIn_cfg : (armEp0StatusIn s).cfg = s.cfg := rfl
@[simp] theorem armEp0StatusIn_dev : (armEp0StatusIn s).dev = s.dev := rfl
@[simp] theorem armEp0StatusIn_sie : (armEp0StatusIn s).sie = s.sie := rfl
@[simp] theorem armEp0StatusIn_setup : (armEp0StatusIn s).setup = s.setup := rfl
@[simp] theorem armEp0StatusIn_mem : (armEp0StatusIn s).mem = s.mem := rfl
@[simp] theorem armEp0StatusIn_out : (armEp0StatusIn s).out = s.out := rfl
@[simp] theorem armEp0StatusIn_hooks : (armEp0StatusIn s).hooks = s.hooks := rfl
@[simp] theorem armEp0StatusIn_fault : (armEp0StatusIn s).fault = s.fault := rfl
@[simp] theorem armEp0StatusIn_backend : (armEp0StatusIn s).backend = s.backend := rfl
@[simp] theorem armEp0StatusIn_client : (armEp0StatusIn s).client = s.client := rfl
@[simp] theorem armEp0StatusIn_lines : (armEp0StatusIn s).lines = s.lines := rfl
@[simp] theorem armEp0StatusIn_draws : (armEp0StatusIn s).draws = s.draws := rfl

@[simp] theorem setCursor_cfg (e : EpId) (a : Addr) (n : BitVec 16) : (setCursor s e a n).cfg = s.cfg := rfl
@[simp] theorem setCursor_dev (e : EpId) (a : Addr) (n : BitVec 16) : (setCursor s e a n).dev = s.dev := rfl
@[simp] theorem setCursor_ep (e : EpId) (a : Addr) (n : BitVec 16) : (setCursor s e a n).ep = s.ep.set e { s.ep.get e with ptr := a, remaining := n, xferred := 0 } := rfl
@[simp] theorem setCursor_bdt (e : EpId) (a : Addr) (n : BitVec 16) : (setCursor s e a n).bdt = s.bdt := rfl
@[simp] theorem setCursor_sie (e : EpId) (a : Addr) (n : BitVec 16) : (setCursor s e a n).sie = s.sie := rfl
@[simp] theorem setCursor_setup (e : EpId) (a : Addr) (n : BitVec 16) : (setCursor s e a n).setup = s.setup := rfl
@[simp] theorem setCursor_mem (e : EpId) (a : Addr) (n : BitVec 16) : (setCursor s e a n).mem = s.mem := rfl
@[simp] theorem setCursor_out (e : EpId) (a : Addr) (n : BitVec 16) : (setCursor s e a n).out = s.out := rfl
@[simp] theorem setCursor_hooks (e : EpId) (a : Addr) (n : BitVec 16) : (setCursor s e a n).hooks = s.hooks := rfl
@[simp] theorem setCursor_fault (e : EpId) (a : Addr) (n : BitVec 16) : (setCursor s e a n).fault = s.fault := rfl
@[simp] theorem setCursor_backend (e : EpId) (a : Addr) (n : BitVec 16) : (setCursor s e a n).backend = s.backend := rfl
@[simp] theorem setCursor_client (e : EpId) (a : Addr) (n : BitVec 16) : (setCursor s e a n).client = s.client := rfl
@[simp] theorem setCursor_lines (e : EpId) (a : Addr) (n : BitVec 16) : (setCursor s e a n).lines = s.lines := rfl
@[simp] theorem setCursor_draws (e : EpId) (a : Addr) (n : BitVec 16) : (setCursor s e a n).draws = s.draws := rfl
@[simp] theorem setCursor_ownedWrite (e : EpId) (a : Addr) (n : BitVec 16) : (setCursor s e a n).ownedWrite = s.ownedWrite := rfl

@[simp] theorem beginTx_cfg (e : EpId) (n : BitVec 16) (a : Addr) : (beginTx s e n a).cfg = s.cfg := rfl
@[simp] theorem beginTx_dev (e : EpId) (n : BitVec 16) (a : Addr) : (beginTx s e n a).dev = s.dev := rfl
@[simp] theorem beginTx_sie (e : EpId) (n : BitVec 16) (a : Addr) : (beginTx s e n a).sie = s.sie := rfl
@[simp] theorem beginTx_setup (e : EpId) (n : BitVec 16) (a : Addr) : (beginTx s e n a).setup = s.setup := rfl
@[simp] theorem beginTx_mem (e : EpId) (n : BitVec 16) (a : Addr) : (beginTx s e n a).mem = s.mem := rfl
@[simp] theorem beginTx_out (e : EpId) (n : BitVec 16) (a : Addr) : (beginTx s e n a).out = s.out := rfl
@[simp] theorem beginTx_hooks (e : EpId) (n : BitVec 16) (a : Addr) : (beginTx s e n a).hooks = s.hooks := rfl
@[simp] theorem beginTx_fault (e : EpId) (n : BitVec 16) (a : Addr) : (beginTx s e n a).fault = s.fault := rfl
@[simp] theorem beginTx_backend (e : EpId) (n : BitVec 16) (a : Addr) : (beginTx s e n a).backend = s.backend := rfl
@[simp] theorem beginTx_client (e : EpId) (n : BitVec 16) (a : Addr) : (beginTx s e n a).client = s.client := rfl
@[simp] theorem beginTx_lines (e : EpId) (n : BitVec 16) (a : Addr) : (beginTx s e n a).lines = s.lines := rfl
@[simp] theorem beginTx_draws (e : EpId) (n : BitVec 16) (a : Addr) : (beginTx s e n a).draws = s.draws := rfl

@[simp] theorem beginRx_cfg (e : EpId) (n : BitVec 16) (a : Addr) : (beginRx s e n a).cfg = s.cfg := rfl
@[simp] theorem beginRx_dev (e : EpId) (n : BitVec 16) (a : Addr) : (beginRx s e n a).dev = s.dev := rfl
@[simp] theorem beginRx_sie (e : EpId) (n : BitVec 16) (a : Addr) : (beginRx s e n a).sie = s.sie := rfl
@[simp] theorem beginRx_setup (e : EpId) (n : BitVec 16) (a : Addr) : (beginRx s e n a).setup = s.setup := rfl
@[simp] theorem beginRx_mem (e : EpId) (n : BitVec 16) (a : Addr) : (beginRx s e n a).mem = s.mem := rfl
@[simp] theorem beginRx_out (e : EpId) (n : BitVec 16) (a : Addr) : (beginRx s e n a).out = s.out := rfl
@[simp] theorem beginRx_hooks (e : EpId) (n : BitVec 16) (a : Addr) : (beginRx s e n a).hooks = s.hooks := rfl
@[simp] theorem beginRx_fault (e : EpId) (n : BitVec 16) (a : Addr) : (beginRx s e n a).fault = s.fault := rfl
@[simp] theorem beginRx_backend (e : EpId) (n : BitVec 16) (a : Addr) : (beginRx s e n a).backend = s.backend := rfl
@[simp] theorem beginRx_client (e : EpId) (n : BitVec 16) (a : Addr) : (beginRx s e n a).client = s.client := rfl
@[simp] theorem beginRx_lines (e : EpId) (n : BitVec 16) (a : Addr) : (beginRx s e n a).lines = s.lines := rfl
@[simp] theorem beginRx_draws (e : EpId) (n : BitVec 16) (a : Addr) : (beginRx s e n a).draws = s.draws := rfl

@[simp] theorem setCb_cfg (e : EpId) (c : Option Callback) : (setCb s e c).cfg = s.cfg := rfl
@[simp] theorem setCb_dev (e : EpId) (c : Option Callback) : (setCb s e c).dev = s.dev := rfl
@[simp] theorem setCb_ep (e : EpId) (c : Option Callback) : (setCb s e c).ep = s.ep.set e { s.ep.get e with callback := c } := rfl
@[simp] theorem setCb_bdt (e : EpId) (c : Option Callback) : (setCb s e c).bdt = s.bdt := rfl
@[simp] theorem setCb_sie (e : EpId) (c : Option Callback) : (setCb s e c).sie = s.sie := rfl
@[simp] theorem setCb_setup (e : EpId) (c : Option Callback) : (setCb s e c).setup = s.setup := rfl
@[simp] theorem setCb_mem (e : EpId) (c : Option Callback) : (setCb s e c).mem = s.mem := rfl
@[simp] theorem setCb_out (e : EpId) (c : Option Callback) : (setCb s e c).out = s.out := rfl
@[simp] theorem setCb_hooks (e : EpId) (c : Option Callback) : (setCb s e c).hooks = s.hooks := rfl
@[simp] theorem setCb_fault (e : EpId) (c : Option Callback) : (setCb s e c).fault = s.fault := rfl
@[simp] theorem setCb_backend (e : EpId) (c : Option Callback) : (setCb s e c).backend = s.backend := rfl
@[simp] theorem setCb_client (e : EpId) (c : Option Callback) : (setCb s e c).client = s.client := rfl
@[simp] theorem setCb_lines (e : EpId) (c : Option Callback) : (setCb s e c).lines = s.lines := rfl
@[simp] theorem setCb_draws (e : EpId) (c : Option Callback) : (setCb s e c).draws = s.draws := rfl
@[simp] theorem setCb_ownedWrite (e : EpId) (c : Option Callback) : (setCb s e c).ownedWrite = s.ownedWrite := rfl

@[simp] theorem reclaim_cfg (e : EpId) (d : Dir) (st : Bool) : (reclaim s e d st).cfg = s.cfg := rfl
@[simp] theorem reclaim_dev (e : EpId) (d : Dir) (st : Bool) : (reclaim s e d st).dev = s.dev := rfl
@[simp] theorem reclaim_ep (e : EpId) (d : Dir) (st : Bool) : (reclaim s e d st).ep = s.ep := rfl
@[simp] theorem reclaim_sie (e : EpId) (d : Dir) (st : Bool) : (reclaim s e d st).sie = s.sie := rfl
@[simp] theorem reclaim_setup (e : EpId) (d : Dir) (st : Bool) : (reclaim s e d st).setup = s.setup := rfl
@[simp] theorem reclaim_mem (e : EpId) (d : Dir) (st : Bool) : (reclaim s e d st).mem = s.mem := rfl
@[simp] theorem reclaim_out (e : EpId) (d : Dir) (st : Bool) : (reclaim s e d st).out = s.out := rfl
@[simp] theorem reclaim_hooks (e : EpId) (d : Dir) (st : Bool) : (reclaim s e d st).hooks = s.hooks := rfl
@[simp] theorem reclaim_fault (e : EpId) (d : Dir) (st : Bool) : (reclaim s e d st).fault = s.fault := rfl
@[simp] theorem reclaim_backend (e : EpId) (d : Dir) (st : Bool) : (reclaim s e d st).backend = s.backend := rfl
@[simp] theorem reclaim_client (e : EpId) (d : Dir) (st : Bool) : (reclaim s e d st).client = s.client := rfl
@[simp] theorem reclaim_lines (e : EpId) (d : Dir) (st : Bool) : (reclaim s e d st).lines = s.lines := rfl
@[simp] theorem reclaim_draws (e : EpId) (d : Dir) (st : Bool) : (reclaim s e d st).draws = s.draws := rfl
@[simp] theorem reclaim_ownedWrite (e : EpId) (d : Dir) (st : Bool) : (reclaim s e d st).ownedWrite = s.ownedWrite := rfl

@[simp] theorem stallEp0_cfg : (stallEp0 s).cfg = s.cfg := rfl
@[simp] theorem stallEp0_dev : (stallEp0 s).dev = s.dev := rfl
@[simp] theorem stallEp0_setup : (stallEp0 s).setup = s.setup := rfl
@[simp] theorem stallEp0_mem : (stallEp0 s).mem = s.mem := rfl
@[simp] theorem stallEp0_out : (stallEp0 s).out = s.out := rfl
@[simp] theorem stallEp0_hooks : (stallEp0 s).hooks = s.hooks := rfl
@[simp] theorem stallEp0_fault : (stallEp0 s).fault = s.fault := rfl
@[simp] theorem stallEp0_backend : (stallEp0 s).backend = s.backend := rfl
@[simp] theorem stallEp0_client : (stallEp0 s).client = s.client := rfl
@[simp] theorem stallEp0_lines : (stallEp0 s).lines = s.lines := rfl
@[simp] theorem stallEp0_draws : (stallEp0 s).draws = s.draws := rfl
@[simp] theorem stallEp0_ownedWrite : (stallEp0 s).ownedWrite = s.ownedWrite := rfl

@[simp] theorem haltReset_cfg (e : EpId) (st : Bool) (p : Phase) : (haltReset s e st p).cfg = s.cfg := rfl
@[simp] theorem haltReset_dev (e : EpId) (st : Bool) (p : Phase) : (haltReset s e st p).dev = s.dev := rfl
@[simp] theorem haltReset_setup (e : EpId) (st : Bool) (p : Phase) : (haltReset s e st p).setup = s.setup := rfl
@[simp] theorem haltReset_mem (e : EpId) (st : Bool) (p : Phase) : (haltReset s e st p).mem = s.mem := rfl
@[simp] theorem haltReset_out (e : EpId) (st : Bool) (p : Phase) : (haltReset s e st p).out = s.out := rfl
@[simp] theorem haltReset_hooks (e : EpId) (st : Bool) (p : Phase) : (haltReset s e st p).hooks = s.hooks := rfl
@[simp] theorem haltReset_fault (e : EpId) (st : Bool) (p : Phase) : (haltReset s e st p).fault = s.fault := rfl
@[simp] theorem haltReset_backend (e : EpId) (st : Bool) (p : Phase) : (haltReset s e st p).backend = s.backend := rfl
@[simp] theorem haltReset_client (e : EpId) (st : Bool) (p : Phase) : (haltReset s e st p).client = s.client := rfl
@[simp] theorem haltReset_lines (e : EpId) (st : Bool) (p : Phase) : (haltReset s e st p).lines = s.lines := rfl
@[simp] theorem haltReset_draws (e : EpId) (st : Bool) (p : Phase) : (haltReset s e st p).draws = s.draws := rfl
@[simp] theorem haltReset_ownedWrite (e : EpId) (st : Bool) (p : Phase) : (haltReset s e st p).ownedWrite = s.ownedWrite := rfl

@[simp] theorem clearStallEp_cfg (e : EpId) : (clearStallEp s e).cfg = s.cfg := rfl
@[simp] theorem clearStallEp_dev (e : EpId) : (clearStallEp s e).dev = s.dev := rfl
@[simp] theorem clearStallEp_setup (e : EpId) : (clearStallEp s e).setup = s.setup := rfl
@[simp] theorem clearStallEp_mem (e : EpId) : (clearStallEp s e).mem = s.mem := rfl
@[simp] theorem clearStallEp_out (e : EpId) : (clearStallEp s e).out = s.out := rfl
@[simp] theorem clearStallEp_hooks (e : EpId) : (clearStallEp s e).hooks = s.hooks := rfl
@[simp] theorem clearStallEp_fault (e : EpId) : (clearStallEp s e).fault = s.fault := rfl
@[simp] theorem clearStallEp_backend (e : EpId) : (clearStallEp s e).backend = s.backend := rfl
@[simp] theorem clearStallEp_client (e : EpId) : (clearStallEp s e).client = s.client := rfl
@[simp] theorem clearStallEp_lines (e : EpId) : (clearStallEp s e).lines = s.lines := rfl
@[simp] theorem clearStallEp_draws (e : EpId) : (clearStallEp s e).draws = s.draws := rfl
@[simp] theorem clearStallEp_ownedWrite (e : EpId) : (clearStallEp s e).ownedWrite = s.ownedWrite := rfl

@[simp] theorem rebuild_cfg (e : EpId) (b : Bool) : (rebuild s e b).cfg = s.cfg := rfl
@[simp] theorem rebuild_dev (e : EpId) (b : Bool) : (rebuild s e b).dev = s.dev := rfl
@[simp] theorem rebuild_setup (e : EpId) (b : Bool) : (rebuild s e b).setup = s.setup := rfl
@[simp] theorem rebuild_mem (e : EpId) (b : Bool) : (rebuild s e b).mem = s.mem := rfl
@[simp] theorem rebuild_out (e : EpId) (b : Bool) : (rebuild s e b).out = s.out := rfl
@[simp] theorem rebuild_hooks (e : EpId) (b : Bool) : (rebuild s e b).hooks = s.hooks := rfl
@[simp] theorem rebuild_fault (e : EpId) (b : Bool) : (rebuild s e b).fault = s.fault := rfl
@[simp] theorem rebuild_backend (e : EpId) (b : Bool) : (rebuild s e b).backend = s.backend := rfl
@[simp] theorem rebuild_client (e : EpId) (b : Bool) : (rebuild s e b).client = s.client := rfl
@[simp] theorem rebuild_lines (e : EpId) (b : Bool) : (rebuild s e b).lines = s.lines := rfl
@[simp] theorem rebuild_draws (e : EpId) (b : Bool) : (rebuild s e b).draws = s.draws := rfl
@[simp] theorem rebuild_ownedWrite (e : EpId) (b : Bool) : (rebuild s e b).ownedWrite = s.ownedWrite := rfl

@[simp] theorem teardown_cfg (e : EpId) : (teardown s e).cfg = s.cfg := rfl
@[simp] theorem teardown_dev (e : EpId) : (teardown s e).dev = s.dev := rfl
@[simp] theorem teardown_setup (e : EpId) : (teardown s e).setup = s.setup := rfl
@[simp] theorem teardown_mem (e : EpId) : (teardown s e).mem = s.mem := rfl
@[simp] theorem teardown_out (e : EpId) : (teardown s e).out = s.out := rfl
@[simp] theorem teardown_hooks (e : EpId) : (teardown s e).hooks = s.hooks := rfl
@[simp] theorem teardown_fault (e : EpId) : (teardown s e).fault = s.fault := rfl
@[simp] theorem teardown_backend (e : EpId) : (teardown s e).backend = s.backend := rfl
@[simp] theorem teardown_client (e : EpId) : (teardown s e).client = s.client := rfl
@[simp] theorem teardown_lines (e : EpId) : (teardown s e).lines = s.lines := rfl
@[simp] theorem teardown_draws (e : EpId) : (teardown s e).draws = s.draws := rfl
@[simp] theorem teardown_ownedWrite (e : EpId) : (teardown s e).ownedWrite = s.ownedWrite := rfl

@[simp] theorem build_cfg (e : EpId) : (build s e).cfg = s.cfg := rfl
@[simp] theorem build_dev (e : EpId) : (build s e).dev = s.dev := rfl
@[simp] theorem build_setup (e : EpId) : (build s e).setup = s.setup := rfl
@[simp] theorem build_mem (e : EpId) : (build s e).mem = s.mem := rfl
@[simp] theorem build_out (e : EpId) : (build s e).out = s.out := rfl
@[simp] theorem build_hooks (e : EpId) : (build s e).hooks = s.hooks := rfl
@[simp] theorem build_fault (e : EpId) : (build s e).fault = s.fault := rfl
@[simp] theorem build_backend (e : EpId) : (build s e).backend = s.backend := rfl
@[simp] theorem build_client (e : EpId) : (build s e).client = s.client := rfl
@[simp] theorem build_lines (e : EpId) : (build s e).lines = s.lines := rfl
@[simp] theorem build_draws (e : EpId) : (build s e).draws = s.draws := rfl
@[simp] theorem build_ownedWrite (e : EpId) : (build s e).ownedWrite = s.ownedWrite := rfl

@[simp] theorem raiseStall_cfg (c : StallCause) : (raiseStall s c).cfg = s.cfg := rfl
@[simp] theorem raiseStall_dev (c : StallCause) : (raiseStall s c).dev = s.dev := rfl
@[simp] theorem raiseStall_setup (c : StallCause) : (raiseStall s c).setup = s.setup := rfl
@[simp] theorem raiseStall_mem (c : StallCause) : (raiseStall s c).mem = s.mem := rfl
@[simp] theorem raiseStall_out (c : StallCause) : (raiseStall s c).out = s.out ++ [.log (.requestError c)] := rfl
@[simp] theorem raiseStall_hooks (c : StallCause) : (raiseStall s c).hooks = s.hooks := rfl
@[simp] theorem raiseStall_fault (c : StallCause) : (raiseStall s c).fault = s.fault := rfl
@[simp] theorem raiseStall_backend (c : StallCause) : (raiseStall s c).backend = s.backend := rfl
@[simp] theorem raiseStall_client (c : StallCause) : (raiseStall s c).client = s.client := rfl
@[simp] theorem raiseStall_lines (c : StallCause) : (raiseStall s c).lines = s.lines := rfl
@[simp] theorem raiseStall_draws (c : StallCause) : (raiseStall s c).draws = s.draws := rfl
@[simp] theorem raiseStall_ownedWrite (c : StallCause) : (raiseStall s c).ownedWrite = s.ownedWrite := rfl

@[simp] theorem resyncEp0_cfg : (resyncEp0 s).cfg = s.cfg := rfl
@[simp] theorem resyncEp0_dev : (resyncEp0 s).dev = s.dev := rfl
@[simp] theorem resyncEp0_sie : (resyncEp0 s).sie = s.sie := rfl
@[simp] theorem resyncEp0_setup : (resyncEp0 s).setup = s.setup := rfl
@[simp] theorem resyncEp0_mem : (resyncEp0 s).mem = s.mem := rfl
@[simp] theorem resyncEp0_out : (resyncEp0 s).out = s.out := rfl
@[simp] theorem resyncEp0_hooks : (resyncEp0 s).hooks = s.hooks := rfl
@[simp] theorem resyncEp0_fault : (resyncEp0 s).fault = s.fault := rfl
@[simp] theorem resyncEp0_backend : (resyncEp0 s).backend = s.backend := rfl
@[simp] theorem resyncEp0_client : (resyncEp0 s).client = s.client := rfl
@[simp] theorem resyncEp0_lines : (resyncEp0 s).lines = s.lines := rfl
@[simp] theorem resyncEp0_draws : (resyncEp0 s).draws = s.draws := rfl
@[simp] theorem resyncEp0_ownedWrite : (resyncEp0 s).ownedWrite = s.ownedWrite := rfl

@[simp] theorem commitAddress_cfg : (commitAddress s).cfg = s.cfg := rfl
@[simp] theorem commitAddress_ep : (commitAddress s).ep = s.ep := rfl
@[simp] theorem commitAddress_bdt : (commitAddress s).bdt = s.bdt := rfl
@[simp] theorem commitAddress_sie : (commitAddress s).sie = s.sie := rfl
@[simp] theorem commitAddress_setup : (commitAddress s).setup = s.setup := rfl
@[simp] theorem commitAddress_mem : (commitAddress s).mem = s.mem := rfl
@[simp] theorem commitAddress_out : (commitAddress s).out = s.out := rfl
@[simp] theorem commitAddress_hooks : (commitAddress s).hooks = s.hooks := rfl
@[simp] theorem commitAddress_fault : (commitAddress s).fault = s.fault := rfl
@[simp] theorem commitAddress_backend : (commitAddress s).backend = s.backend := rfl
@[simp] theorem commitAddress_client : (commitAddress s).client = s.client := rfl
@[simp] theorem commitAddress_lines : (commitAddress s).lines = s.lines := rfl
@[simp] theorem commitAddress_draws : (commitAddress s).draws = s.draws := rfl
@[simp] theorem commitAddress_ownedWrite : (commitAddress s).ownedWrite = s.ownedWrite := rfl

@[simp] theorem applyNoData_cfg (cb : Option Callback) : (applyNoData s cb).cfg = s.cfg := rfl
@[simp] theorem applyNoData_dev (cb : Option Callback) : (applyNoData s cb).dev = s.dev := rfl
@[simp] theorem applyNoData_sie (cb : Option Callback) : (applyNoData s cb).sie = s.sie := rfl
@[simp] theorem applyNoData_setup (cb : Option Callback) : (applyNoData s cb).setup = s.setup := rfl
@[simp] theorem applyNoData_mem (cb : Option Callback) : (applyNoData s cb).mem = s.mem := rfl
@[simp] theorem applyNoData_out (cb : Option Callback) : (applyNoData s cb).out = s.out := rfl
@[simp] theorem applyNoData_hooks (cb : Option Callback) : (applyNoData s cb).hooks = s.hooks := rfl
@[simp] theorem applyNoData_fault (cb : Option Callback) : (applyNoData s cb).fault = s.fault := rfl
@[simp] theorem applyNoData_backend (cb : Option Callback) : (applyNoData s cb).backend = s.backend := rfl
@[simp] theorem applyNoData_client (cb : Option Callback) : (applyNoData s cb).client = s.client := rfl
@[simp] theorem applyNoData_lines (cb : Option Callback) : (applyNoData s cb).lines = s.lines := rfl
@[simp] theorem applyNoData_draws (cb : Option Callback) : (applyNoData s cb).draws = s.draws := rfl

@[simp] theorem answer_cfg (a : Answer) : (answer s a).cfg = s.cfg := rfl
@[simp] theorem answer_dev (a : Answer) : (answer s a).dev = s.dev := rfl
@[simp] theorem answer_ep (a : Answer) : (answer s a).ep = s.ep := rfl
@[simp] theorem answer_bdt (a : Answer) : (answer s a).bdt = s.bdt := rfl
@[simp] theorem answer_sie (a : Answer) : (answer s a).sie = { s.sie with answer := a } := rfl
@[simp] theorem answer_setup (a : Answer) : (answer s a).setup = s.setup := rfl
@[simp] theorem answer_mem (a : Answer) : (answer s a).mem = s.mem := rfl
@[simp] theorem answer_out (a : Answer) : (answer s a).out = s.out := rfl
@[simp] theorem answer_hooks (a : Answer) : (answer s a).hooks = s.hooks := rfl
@[simp] theorem answer_fault (a : Answer) : (answer s a).fault = s.fault := rfl
@[simp] theorem answer_backend (a : Answer) : (answer s a).backend = s.backend := rfl
@[simp] theorem answer_client (a : Answer) : (answer s a).client = s.client := rfl
@[simp] theorem answer_lines (a : Answer) : (answer s a).lines = s.lines := rfl
@[simp] theorem answer_draws (a : Answer) : (answer s a).draws = s.draws := rfl
@[simp] theorem answer_ownedWrite (a : Answer) : (answer s a).ownedWrite = s.ownedWrite := rfl

@[simp] theorem complete_cfg (e : EpId) (d : Dir) (k : Bool) (x : Slot) : (complete s e d k x).cfg = s.cfg := rfl
@[simp] theorem complete_dev (e : EpId) (d : Dir) (k : Bool) (x : Slot) : (complete s e d k x).dev = s.dev := rfl
@[simp] theorem complete_ep (e : EpId) (d : Dir) (k : Bool) (x : Slot) : (complete s e d k x).ep = s.ep := rfl
@[simp] theorem complete_setup (e : EpId) (d : Dir) (k : Bool) (x : Slot) : (complete s e d k x).setup = s.setup := rfl
@[simp] theorem complete_mem (e : EpId) (d : Dir) (k : Bool) (x : Slot) : (complete s e d k x).mem = s.mem := rfl
@[simp] theorem complete_out (e : EpId) (d : Dir) (k : Bool) (x : Slot) : (complete s e d k x).out = s.out := rfl
@[simp] theorem complete_hooks (e : EpId) (d : Dir) (k : Bool) (x : Slot) : (complete s e d k x).hooks = s.hooks := rfl
@[simp] theorem complete_fault (e : EpId) (d : Dir) (k : Bool) (x : Slot) : (complete s e d k x).fault = s.fault := rfl
@[simp] theorem complete_backend (e : EpId) (d : Dir) (k : Bool) (x : Slot) : (complete s e d k x).backend = s.backend := rfl
@[simp] theorem complete_client (e : EpId) (d : Dir) (k : Bool) (x : Slot) : (complete s e d k x).client = s.client := rfl
@[simp] theorem complete_lines (e : EpId) (d : Dir) (k : Bool) (x : Slot) : (complete s e d k x).lines = s.lines := rfl
@[simp] theorem complete_draws (e : EpId) (d : Dir) (k : Bool) (x : Slot) : (complete s e d k x).draws = s.draws := rfl
@[simp] theorem complete_ownedWrite (e : EpId) (d : Dir) (k : Bool) (x : Slot) : (complete s e d k x).ownedWrite = s.ownedWrite := rfl

@[simp] theorem stallEp_cfg (e : EpId) : (stallEp s e).cfg = s.cfg := by unfold stallEp; split <;> rfl
@[simp] theorem stallEp_dev (e : EpId) : (stallEp s e).dev = s.dev := by unfold stallEp; split <;> rfl
@[simp] theorem stallEp_setup (e : EpId) : (stallEp s e).setup = s.setup := by unfold stallEp; split <;> rfl
@[simp] theorem stallEp_mem (e : EpId) : (stallEp s e).mem = s.mem := by unfold stallEp; split <;> rfl
@[simp] theorem stallEp_out (e : EpId) : (stallEp s e).out = s.out := by unfold stallEp; split <;> rfl
@[simp] theorem stallEp_hooks (e : EpId) : (stallEp s e).hooks = s.hooks := by unfold stallEp; split <;> rfl
@[simp] theorem stallEp_fault (e : EpId) : (stallEp s e).fault = s.fault := by unfold stallEp; split <;> rfl
@[simp] theorem stallEp_backend (e : EpId) : (stallEp s e).backend = s.backend := by unfold stallEp; split <;> rfl
@[simp] theorem stallEp_client (e : EpId) : (stallEp s e).client = s.client := by unfold stallEp; split <;> rfl
@[simp] theorem stallEp_lines (e : EpId) : (stallEp s e).lines = s.lines := by unfold stallEp; split <;> rfl
@[simp] theorem stallEp_draws (e : EpId) : (stallEp s e).draws = s.draws := by unfold stallEp; split <;> rfl
@[simp] theorem stallEp_ownedWrite (e : EpId) : (stallEp s e).ownedWrite = s.ownedWrite := by unfold stallEp; split <;> rfl

@[simp] theorem backendCall_cfg (b : BackendCall) : (backendCall s b).cfg = s.cfg := by cases b <;> rfl
@[simp] theorem backendCall_dev (b : BackendCall) : (backendCall s b).dev = s.dev := by cases b <;> rfl
@[simp] theorem backendCall_ep (b : BackendCall) : (backendCall s b).ep = s.ep := by cases b <;> rfl
@[simp] theorem backendCall_bdt (b : BackendCall) : (backendCall s b).bdt = s.bdt := by cases b <;> rfl
@[simp] theorem backendCall_sie (b : BackendCall) : (backendCall s b).sie = s.sie := by cases b <;> rfl
@[simp] theorem backendCall_setup (b : BackendCall) : (backendCall s b).setup = s.setup := by cases b <;> rfl
@[simp] theorem backendCall_mem (b : BackendCall) : (backendCall s b).mem = s.mem := by cases b <;> rfl
@[simp] theorem backendCall_hooks (b : BackendCall) : (backendCall s b).hooks = s.hooks := by cases b <;> rfl
@[simp] theorem backendCall_fault (b : BackendCall) : (backendCall s b).fault = s.fault := by cases b <;> rfl
@[simp] theorem backendCall_client (b : BackendCall) : (backendCall s b).client = s.client := by cases b <;> rfl
@[simp] theorem backendCall_lines (b : BackendCall) : (backendCall s b).lines = s.lines := by cases b <;> rfl
@[simp] theorem backendCall_draws (b : BackendCall) : (backendCall s b).draws = s.draws := by cases b <;> rfl
@[simp] theorem backendCall_ownedWrite (b : BackendCall) : (backendCall s b).ownedWrite = s.ownedWrite := by cases b <;> rfl

@[simp] theorem wakeSend_cfg : (wakeSend s).cfg = s.cfg := by unfold wakeSend; split <;> rfl
@[simp] theorem wakeSend_dev : (wakeSend s).dev = s.dev := by unfold wakeSend; split <;> rfl
@[simp] theorem wakeSend_ep : (wakeSend s).ep = s.ep := by unfold wakeSend; split <;> rfl
@[simp] theorem wakeSend_bdt : (wakeSend s).bdt = s.bdt := by unfold wakeSend; split <;> rfl
@[simp] theorem wakeSend_sie : (wakeSend s).sie = s.sie := by unfold wakeSend; split <;> rfl
@[simp] theorem wakeSend_setup : (wakeSend s).setup = s.setup := by unfold wakeSend; split <;> rfl
@[simp] theorem wakeSend_mem : (wakeSend s).mem = s.mem := by unfold wakeSend; split <;> rfl
@[simp] theorem wakeSend_out : (wakeSend s).out = s.out := by unfold wakeSend; split <;> rfl
@[simp] theorem wakeSend_hooks : (wakeSend s).hooks = s.hooks := by unfold wakeSend; split <;> rfl
@[simp] theorem wakeSend_fault : (wakeSend s).fault = s.fault := by unfold wakeSend; split <;> rfl
@[simp] theorem wakeSend_backend : (wakeSend s).backend = s.backend := by unfold wakeSend; split <;> rfl
@[simp] theorem wakeSend_lines : (wakeSend s).lines = s.lines := by unfold wakeSend; split <;> rfl
@[simp] theorem wakeSend_draws : (wakeSend s).draws = s.draws := by unfold wakeSend; split <;> rfl
@[simp] theorem wakeSend_ownedWrite : (wakeSend s).ownedWrite = s.ownedWrite := by unfold wakeSend; split <;> rfl

@[simp] theorem wakeRecv_cfg : (wakeRecv s).cfg = s.cfg := by unfold wakeRecv; split <;> rfl
@[simp] theorem wakeRecv_dev : (wakeRecv s).dev = s.dev := by unfold wakeRecv; split <;> rfl
@[simp] theorem wakeRecv_ep : (wakeRecv s).ep = s.ep := by unfold wakeRecv; split <;> rfl
@[simp] theorem wakeRecv_bdt : (wakeRecv s).bdt = s.bdt := by unfold wakeRecv; split <;> rfl
@[simp] theorem wakeRecv_sie : (wakeRecv s).sie = s.sie := by unfold wakeRecv; split <;> rfl
@[simp] theorem wakeRecv_setup : (wakeRecv s).setup = s.setup := by unfold wakeRecv; split <;> rfl
@[simp] theorem wakeRecv_mem : (wakeRecv s).mem = s.mem := by unfold wakeRecv; split <;> rfl
@[simp] theorem wakeRecv_out : (wakeRecv s).out = s.out := by unfold wakeRecv; split <;> rfl
@[simp] theorem wakeRecv_hooks : (wakeRecv s).hooks = s.hooks := by unfold wakeRecv; split <;> rfl
@[simp] theorem wakeRecv_fault : (wakeRecv s).fault = s.fault := by unfold wakeRecv; split <;> rfl
@[simp] theorem wakeRecv_backend : (wakeRecv s).backend = s.backend := by unfold wakeRecv; split <;> rfl
@[simp] theorem wakeRecv_lines : (wakeRecv s).lines = s.lines := by unfold wakeRecv; split <;> rfl
@[simp] theorem wakeRecv_draws : (wakeRecv s).draws = s.draws := by unfold wakeRecv; split <;> rfl
@[simp] theorem wakeRecv_ownedWrite : (wakeRecv s).ownedWrite = s.ownedWrite := by unfold wakeRecv; split <;> rfl

@[simp] theorem wakeClient_cfg : (wakeClient s).cfg = s.cfg := by simp [wakeClient]
@[simp] theorem wakeClient_dev : (wakeClient s).dev = s.dev := by simp [wakeClient]
@[simp] theorem wakeClient_ep : (wakeClient s).ep = s.ep := by simp [wakeClient]
@[simp] theorem wakeClient_bdt : (wakeClient s).bdt = s.bdt := by simp [wakeClient]
@[simp] theorem wakeClient_sie : (wakeClient s).sie = s.sie := by simp [wakeClient]
@[simp] theorem wakeClient_setup : (wakeClient s).setup = s.setup := by simp [wakeClient]
@[simp] theorem wakeClient_mem : (wakeClient s).mem = s.mem := by simp [wakeClient]
@[simp] theorem wakeClient_out : (wakeClient s).out = s.out := by simp [wakeClient]
@[simp] theorem wakeClient_hooks : (wakeClient s).hooks = s.hooks := by simp [wakeClient]
@[simp] theorem wakeClient_fault : (wakeClient s).fault = s.fault := by simp [wakeClient]
@[simp] theorem wakeClient_backend : (wakeClient s).backend = s.backend := by simp [wakeClient]
@[simp] theorem wakeClient_lines : (wakeClient s).lines = s.lines := by simp [wakeClient]
@[simp] theorem wakeClient_draws : (wakeClient s).draws = s.draws := by simp [wakeClient]
@[simp] theorem wakeClient_ownedWrite : (wakeClient s).ownedWrite = s.ownedWrite := by simp [wakeClient]

end Sys2Proof.Machine
end

