-- ==== Sys2Proof/Laws/Memory.lean ====
section
/-! SUPPORT. The laws of memory: a byte read after a byte written, the canonical form kept by every memory
operation, and what `store` and `load` can do. -/

namespace Sys2Proof.Machine

/-- The value of a byte in a list of memory (`peek` on the list). -/
abbrev peekIn (c : Params) (m : List (Nat × Byte)) (a : Nat) : Byte :=
  (listed m a).getD (unlisted c a)

theorem peek_eq (s : State) (a : Nat) : peek s a = peekIn s.cfg s.mem a := rfl

theorem peek_congr {s t : State} (hc : t.cfg = s.cfg) (hm : t.mem = s.mem) (a : Nat) :
    peek t a = peek s a := by simp [peek, hc, hm]

/-! ## The list -/

theorem memWfFrom_mono {c : Params} {m : List (Nat × Byte)} {lo hi : Nat}
    (h : memWfFrom c hi m = true) (hl : lo ≤ hi) : memWfFrom c lo m = true := by
  cases m with
  | nil => rfl
  | cons p m =>
    obtain ⟨x, b⟩ := p
    simp only [memWfFrom, Bool.and_eq_true, decide_eq_true_eq] at h ⊢
    exact ⟨⟨⟨⟨by omega, h.1.1.1.2⟩, h.1.1.2⟩, h.1.2⟩, h.2⟩

/-- Nothing below the bound of a canonical list is listed. -/
theorem listed_below {c : Params} {m : List (Nat × Byte)} {lo a : Nat}
    (h : memWfFrom c lo m = true) (ha : a < lo) : listed m a = none := by
  induction m generalizing lo with
  | nil => rfl
  | cons p m ih =>
    obtain ⟨x, b⟩ := p
    simp only [memWfFrom, Bool.and_eq_true, decide_eq_true_eq] at h
    have hx := h.1.1.1.1
    simp only [listed]
    rw [if_neg (by omega)]
    exact ih h.2 (by omega)

theorem listed_memPut (m : List (Nat × Byte)) (a x : Nat) (b : Byte) :
    listed (memPut m a b) x = if x = a then some b else listed m x := by
  induction m with
  | nil => simp only [memPut, listed]; split <;> split <;> first | rfl | omega
  | cons p m ih =>
    obtain ⟨y, c⟩ := p
    simp only [memPut]
    split
    · simp only [listed]
      by_cases h : a = x
      · rw [if_pos h, if_pos h.symm]
      · rw [if_neg h, if_neg (Ne.symm h)]
    · split
      · simp only [listed]
        by_cases h : a = x
        · rw [if_pos h, if_pos h.symm]
        · rw [if_neg h, if_neg (Ne.symm h), if_neg (by omega)]
      · simp only [listed, ih]
        split <;> split <;> first | rfl | omega

theorem listed_memDel {c : Params} {lo : Nat} {m : List (Nat × Byte)} (h : memWfFrom c lo m = true)
    (a x : Nat) : listed (memDel m a) x = if x = a then none else listed m x := by
  induction m generalizing lo with
  | nil => simp [memDel, listed]
  | cons p m ih =>
    obtain ⟨y, d⟩ := p
    simp only [memWfFrom, Bool.and_eq_true, decide_eq_true_eq] at h
    simp only [memDel]
    split
    · by_cases hx : x = a
      · rw [if_pos hx]
        exact listed_below h.2 (by omega)
      · rw [if_neg hx]
        simp only [listed]
        rw [if_neg (by omega)]
    · simp only [listed, ih h.2]
      split <;> split <;> first | rfl | omega

/-- A byte read after a byte written (R10). -/
theorem peekIn_poke {c : Params} {m : List (Nat × Byte)} (h : memWfFrom c 0 m = true) (a x : Nat)
    (b : Byte) : peekIn c (poke c m a b) x = if x = a then b else peekIn c m x := by
  unfold poke
  split
  · rename_i hb
    simp only [peekIn, listed_memDel h]
    split
    · rename_i hx; simp [hx, hb]
    · rfl
  · simp only [peekIn, listed_memPut]
    split <;> rfl

theorem memPut_wf {c : Params} {lo : Nat} {m : List (Nat × Byte)} {a : Nat} {b : Byte}
    (h : memWfFrom c lo m = true) (hlo : lo ≤ a) (ha : a < 2 ^ 32) (hb : b ≠ unlisted c a)
    (hr : romByte c a = none) : memWfFrom c lo (memPut m a b) = true := by
  induction m generalizing lo with
  | nil => simpa [memPut, memWfFrom, hlo, hb, hr] using ha
  | cons p m ih =>
    obtain ⟨y, d⟩ := p
    simp only [memWfFrom, Bool.and_eq_true, decide_eq_true_eq] at h
    simp only [memPut]
    split
    · simp only [memWfFrom, Bool.and_eq_true, decide_eq_true_eq]
      refine ⟨⟨⟨⟨hlo, ha⟩, by simpa using hb⟩, by simp [hr]⟩, ⟨⟨⟨by omega, h.1.1.1.2⟩, h.1.1.2⟩, h.1.2⟩, h.2⟩
    · split
      · simp only [memWfFrom, Bool.and_eq_true, decide_eq_true_eq]
        refine ⟨⟨⟨⟨hlo, ha⟩, by simpa using hb⟩, by simp [hr]⟩, ?_⟩
        rename_i hay
        exact hay ▸ h.2
      · simp only [memWfFrom, Bool.and_eq_true, decide_eq_true_eq]
        exact ⟨h.1, ih h.2 (by omega)⟩

theorem memDel_wf {c : Params} {lo : Nat} {m : List (Nat × Byte)} (a : Nat)
    (h : memWfFrom c lo m = true) : memWfFrom c lo (memDel m a) = true := by
  induction m generalizing lo with
  | nil => rfl
  | cons p m ih =>
    obtain ⟨y, d⟩ := p
    simp only [memWfFrom, Bool.and_eq_true, decide_eq_true_eq] at h
    simp only [memDel]
    split
    · exact memWfFrom_mono h.2 (by omega)
    · simp only [memWfFrom, Bool.and_eq_true, decide_eq_true_eq]
      exact ⟨h.1, ih h.2⟩

/-- A written byte keeps the canonical form, outside the descriptors. -/
theorem poke_wf {c : Params} {m : List (Nat × Byte)} {a : Nat} (b : Byte)
    (h : memWfFrom c 0 m = true) (ha : a < 2 ^ 32) (hr : romByte c a = none) :
    memWfFrom c 0 (poke c m a b) = true := by
  unfold poke
  split
  · exact memDel_wf a h
  · exact memPut_wf h (Nat.zero_le _) ha ‹_› hr

/-- Written bytes keep the canonical form, and read back where they were written, with every other byte as
before. -/
theorem pokes_spec {c : Params} {m : List (Nat × Byte)} (bs : List Byte) (a : Nat)
    (h : memWfFrom c 0 m = true) (hs : a + bs.length ≤ 2 ^ 32)
    (hr : ∀ x, a ≤ x → x < a + bs.length → romByte c x = none) :
    memWfFrom c 0 (pokes c m a bs) = true ∧
    ∀ x, peekIn c (pokes c m a bs) x =
      if a ≤ x ∧ x < a + bs.length then bs[x - a]?.getD 0 else peekIn c m x := by
  induction bs generalizing m a with
  | nil => exact ⟨h, fun x => by rw [if_neg (by simp only [List.length_nil]; omega)]; rfl⟩
  | cons b bs ih =>
    simp only [List.length_cons] at hs hr
    have hw := poke_wf b h (by omega) (hr a (Nat.le_refl _) (by omega))
    have := ih (a + 1) hw (by omega) (fun x h1 h2 => hr x (by omega) (by omega))
    refine ⟨this.1, fun x => ?_⟩
    rw [pokes, this.2 x, peekIn_poke h]
    simp only [List.length_cons]
    by_cases hx : x = a
    · subst hx
      rw [if_neg (by omega), if_pos rfl, if_pos (by omega)]
      simp
    · rw [if_neg hx]
      by_cases hin : a + 1 ≤ x ∧ x < a + 1 + bs.length
      · rw [if_pos hin, if_pos (by omega), show x - a = (x - (a + 1)) + 1 by omega]
        simp
      · rw [if_neg hin, if_neg (by omega)]

/-! ## ROM -/

/-- A descriptor byte stands in a descriptor region. -/
theorem meets_of_romByte {c : Params} {x a n : Nat} (h : romByte c x ≠ none) (h1 : a ≤ x)
    (h2 : x < a + n) : ((romRegions c).any fun r => meets r a n) = true := by
  have key : ∀ (base : Addr) (bs : List Byte), regionByte base bs x ≠ none →
      meets ⟨base.toNat, bs.length⟩ a n = true := by
    intro base bs hb
    unfold regionByte at hb
    split at hb
    · have hlt : x - base.toNat < bs.length := by
        by_contra hc
        exact hb (List.getElem?_eq_none (by omega))
      simp only [meets, decide_eq_true_eq]
      omega
    · exact absurd rfl hb
  simp only [romRegions, descRegions, List.cons_append, List.nil_append, List.any_cons, Bool.or_eq_true]
  unfold romByte at h
  by_cases hd : regionByte c.devDescAddr c.deviceDesc x = none
  · simp only [hd] at h
    by_cases hc : regionByte c.cfgDescAddr c.configDesc x = none
    · simp only [hc] at h
      exact .inr (.inr (.inl (key _ _ h)))
    · exact .inr (.inl (key _ _ hc))
  · exact .inl (key _ _ hd)

/-! ## store and load -/

/-- Everything `store` can do: fault past the space, refuse a ROM address, or write the bytes. -/
theorem store_cases (s : State) (a : Addr) (bs : List Byte) :
    (store s a bs = .fault .addressSpace ∧ 2 ^ 32 < a.toNat + bs.length) ∨
    (store s a bs = .refused .romWrite) ∨
    (store s a bs = .next { s with mem := pokes s.cfg s.mem a.toNat bs } ∧
      a.toNat + bs.length ≤ 2 ^ 32 ∧
      ∀ x, a.toNat ≤ x → x < a.toNat + bs.length → romByte s.cfg x = none) := by
  unfold store
  split
  · exact .inl ⟨rfl, ‹_›⟩
  · split
    · exact .inr (.inl rfl)
    · rename_i h1 h2
      refine .inr (.inr ⟨rfl, by omega, fun x hx1 hx2 => ?_⟩)
      by_contra hr
      exact h2 (meets_of_romByte hr hx1 hx2)

/-- What a successful `store` leaves: the bytes written, nothing else changed, the canonical form kept. -/
theorem store_next {s t : State} {a : Addr} {bs : List Byte} (h : store s a bs = .next t) :
    t = { s with mem := t.mem } ∧ a.toNat + bs.length ≤ 2 ^ 32 ∧
    (memWf s = true → memWf t = true ∧ ∀ x, peek t x =
      if a.toNat ≤ x ∧ x < a.toNat + bs.length then bs[x - a.toNat]?.getD 0 else peek s x) := by
  rcases store_cases s a bs with ⟨h1, -⟩ | h1 | ⟨h1, h2, h3⟩
  · rw [h1] at h; cases h
  · rw [h1] at h; cases h
  · rw [h1] at h
    cases h
    exact ⟨rfl, h2, fun hw => pokes_spec bs a.toNat hw h2 h3⟩

/-- A `store` inside the space that meets no ROM range succeeds. -/
theorem store_ok {s : State} {a : Addr} {bs : List Byte} (h1 : a.toNat + bs.length ≤ 2 ^ 32)
    (h2 : ((romRegions s.cfg).any fun r => meets r a.toNat bs.length) = false) :
    store s a bs = .next { s with mem := pokes s.cfg s.mem a.toNat bs } := by
  unfold store
  rw [if_neg (by omega), if_neg (by simp [h2])]

/-- A `load` inside the space gives the bytes. -/
theorem load_ok {s : State} {a : Addr} {n : Nat} (h : a.toNat + n ≤ 2 ^ 32) :
    load s a n = .next (peeks s a.toNat n) := by unfold load; rw [if_pos h]

@[simp] theorem peeks_length (s : State) (a n : Nat) : (peeks s a n).length = n := by
  induction n generalizing a with
  | zero => rfl
  | succ n ih => simp [peeks, ih]

theorem peeks_getElem? (s : State) (a n i : Nat) (h : i < n) :
    (peeks s a n)[i]? = some (peek s (a + i)) := by
  induction n generalizing a i with
  | zero => omega
  | succ n ih =>
    cases i with
    | zero => rfl
    | succ i =>
      simp only [peeks, List.getElem?_cons_succ]
      rw [ih (a + 1) i (by omega)]
      congr 2
      omega

/-- Memory is canonical right after power-on, in every configuration. -/
theorem powerOn_memWf (c : Params) : memWf (State.powerOn c) = true := rfl

/-- Memory is canonical right after reset. -/
theorem reset_memWf : memWf State.reset = true := rfl

end Sys2Proof.Machine
end

