-- ==== Sys2Proof/Laws/Regions.lean ====
section
/-! SUPPORT. What the build checks give: the block's own buffers can be written and read within their sizes
(R81, R83, R90), and the packet sizes are in range (R6). -/

namespace Sys2Proof.Machine

theorem buildOk_placement {c : Params} (h : buildOk c = true) : placementOk c = true := by
  simp only [buildOk, Bool.and_eq_true] at h
  exact h.2.2.2.2.2.2.2.1

theorem buildOk_ranges {c : Params} (h : buildOk c = true) : rangesOk c = true := by
  simp only [buildOk, Bool.and_eq_true] at h
  exact h.2.2.1

theorem buildOk_map {c : Params} (h : buildOk c = true) : mapOk c = true := by
  simp only [buildOk, Bool.and_eq_true] at h
  exact h.2.1

/-- From 2 to 16 endpoints, with as many entries of `EP_MAP` and as many buffers (R6; log 36). -/
theorem numEp_range {c : Params} (h : buildOk c = true) :
    2 ≤ c.numEp ∧ c.numEp ≤ 16 ∧ c.epMap.length = c.numEp ∧ c.buf.length = c.numEp := by
  have := buildOk_map h
  simp only [mapOk, Bool.and_eq_true, decide_eq_true_eq, beq_iff_eq] at this
  exact ⟨this.1.1.1.1.1.1, this.1.1.1.1.1.2, this.1.1.1.1.2, this.1.1.1.2⟩

/-- EP0 is an endpoint of every configuration. -/
theorem ep0_lt {c : Params} (h : buildOk c = true) : EpId.num .ep0 < c.numEp :=
  Nat.lt_of_lt_of_le (by decide) (numEp_range h).1

/-- The entry of an endpoint other than EP0 (R7, R210, D4). -/
theorem client_entry {c : Params} (h : buildOk c = true) {e : EpId} (h0 : e ≠ .ep0) (hn : e.num < c.numEp) :
    ∃ x, entryOf c e = some x ∧ clientEntryOk c x = true := by
  have := buildOk_map h
  simp only [mapOk, Bool.and_eq_true, List.all_eq_true] at this
  have := this.1.2 e (mem_nonControl.2 ⟨h0, hn⟩)
  cases hx : entryOf c e with
  | none => simp [hx] at this
  | some x => exact ⟨x, rfl, by simpa [hx] using this⟩

/-- The notification endpoint takes a notification in one packet (D4, R418). -/
theorem notify_mps {c : Params} (h : buildOk c = true) {e : EpId} (he : epNotify c = some e) : 10 ≤ mps c e := by
  have := buildOk_map h
  simp only [mapOk, Bool.and_eq_true] at this
  simpa [he] using this.2

/-- `EP0_MPS` is one of 8, 16, 32, 64 (R6). -/
theorem ep0Mps_cases {c : Params} (h : buildOk c = true) :
    c.ep0Mps = 8 ∨ c.ep0Mps = 16 ∨ c.ep0Mps = 32 ∨ c.ep0Mps = 64 := by
  have := buildOk_ranges h
  simp only [rangesOk, Bool.and_eq_true, List.contains_eq_mem, decide_eq_true_eq] at this
  simpa using this.1.1.1.1.1.1.1.1.1

/-- EP0's packet size is `EP0_MPS` (R6, R203). -/
@[simp] theorem mps_ep0 (c : Params) : mps c .ep0 = c.ep0Mps := rfl

/-- Every packet size is from 1 to 64 (R245). -/
theorem mps_range {c : Params} (h : buildOk c = true) {e : EpId} (hn : e.num < c.numEp) :
    1 ≤ mps c e ∧ mps c e ≤ 64 := by
  by_cases h0 : e = .ep0
  · subst h0
    have := ep0Mps_cases h
    rw [mps_ep0]; omega
  · obtain ⟨x, hx, hok⟩ := client_entry h h0 hn
    simp only [mps, if_neg h0, hx]
    unfold clientEntryOk at hok
    generalize mpsBytes c x.mps = n at hok ⊢
    cases ht : x.type <;> simp [ht] at hok <;> omega

/-- A range within a RAM region of R81 lies in the space and meets no ROM range. -/
theorem ram_within {c : Params} (h : buildOk c = true) {r : Region} (hr : r ∈ ramRegions c) {a n : Nat}
    (h1 : r.base ≤ a) (h2 : a + n ≤ r.base + r.size) :
    a + n ≤ 2 ^ 32 ∧ ((romRegions c).any fun q => meets q a n) = false := by
  have hp := buildOk_placement h
  simp only [placementOk, Bool.and_eq_true, List.all_eq_true] at hp
  have hin := hp.1.1.1.1 r hr
  simp only [inSpace, decide_eq_true_eq] at hin
  refine ⟨by omega, ?_⟩
  simp only [List.any_eq_false, meets, decide_eq_true_eq]
  intro q hq
  have hap := hp.1.1.2 r hr q hq
  simp only [apart, decide_eq_true_eq] at hap
  omega

theorem buf_mem {c : Params} {e : EpId} (hn : e.num < c.numEp) (d : Dir) (k : Bool) :
    (⟨(bufAddr c e d k).toNat, mps c e⟩ : Region) ∈ ramRegions c := by
  unfold ramRegions
  refine List.mem_append_left _ (List.mem_flatMap.2 ⟨e, mem_endpoints.2 hn, ?_⟩)
  cases d <;> cases k <;> simp

theorem scratch_mem (c : Params) : (⟨c.scratchAddr.toNat, c.ep0Mps⟩ : Region) ∈ ramRegions c := by
  simp [ramRegions]

theorem lc_mem (c : Params) : (⟨c.lcAddr.toNat, 7⟩ : Region) ∈ ramRegions c := by
  simp [ramRegions]

/-- Bytes that fit the region are written from its first address on. -/
theorem store_ram {s : State} (h : buildOk s.cfg = true) {a : Addr} {sz : Nat} {bs : List Byte}
    (hr : (⟨a.toNat, sz⟩ : Region) ∈ ramRegions s.cfg) (hn : bs.length ≤ sz) :
    store s a bs = .next { s with mem := pokes s.cfg s.mem a.toNat bs } := by
  have := ram_within h hr (a := a.toNat) (n := bs.length) (Nat.le_refl _)
    (Nat.add_le_add_left hn _)
  exact store_ok this.1 this.2

/-- An endpoint's own buffer takes `mps` bytes (R81). -/
theorem store_buf {s : State} (h : buildOk s.cfg = true) {e : EpId} (he : e.num < s.cfg.numEp) (d : Dir)
    (k : Bool) {bs : List Byte} (hn : bs.length ≤ mps s.cfg e) :
    store s (bufAddr s.cfg e d k) bs =
      .next { s with mem := pokes s.cfg s.mem (bufAddr s.cfg e d k).toNat bs } :=
  store_ram h (buf_mem he d k) hn

/-- An endpoint's own buffer can be read. -/
theorem load_buf {s : State} (h : buildOk s.cfg = true) {e : EpId} (he : e.num < s.cfg.numEp) (d : Dir)
    (k : Bool) {n : Nat} (hn : n ≤ mps s.cfg e) :
    load s (bufAddr s.cfg e d k) n = .next (peeks s (bufAddr s.cfg e d k).toNat n) :=
  load_ok (ram_within h (buf_mem he d k) (a := (bufAddr s.cfg e d k).toNat) (n := n)
    (Nat.le_refl _) (Nat.add_le_add_left hn _)).1

/-- The line-coding buffer takes 7 bytes (R48). -/
theorem store_lc {s : State} (h : buildOk s.cfg = true) {bs : List Byte} (hn : bs.length ≤ 7) :
    store s s.cfg.lcAddr bs = .next { s with mem := pokes s.cfg s.mem s.cfg.lcAddr.toNat bs } :=
  store_ram h (lc_mem s.cfg) hn

/-- The line-coding buffer can be read. -/
theorem load_lc {s : State} (h : buildOk s.cfg = true) :
    load s s.cfg.lcAddr 7 = .next (peeks s s.cfg.lcAddr.toNat 7) :=
  load_ok (ram_within h (lc_mem s.cfg) (a := s.cfg.lcAddr.toNat) (n := 7) (Nat.le_refl _)
    (Nat.le_refl _)).1

/-- The scratch buffer takes `EP0_MPS` bytes (R47). -/
theorem store_scratch {s : State} (h : buildOk s.cfg = true) {bs : List Byte}
    (hn : bs.length ≤ s.cfg.ep0Mps) :
    store s s.cfg.scratchAddr bs =
      .next { s with mem := pokes s.cfg s.mem s.cfg.scratchAddr.toNat bs } :=
  store_ram h (scratch_mem s.cfg) hn

/-- No buffer region starts at address 0, the NULL of R133. -/
theorem buf_ne_zero {c : Params} (h : buildOk c = true) {e : EpId} (he : e.num < c.numEp) (d : Dir) (k : Bool) :
    bufAddr c e d k ≠ 0 := by
  have hp := buildOk_placement h
  simp only [placementOk, Bool.and_eq_true, List.all_eq_true] at hp
  have hin := hp.1.1.1.1 _ (buf_mem he d k)
  simp only [decide_eq_true_eq] at hin
  intro hz
  rw [hz] at hin
  exact absurd hin.2 (by decide)

/-- An encoded string fits the scratch buffer (R206). -/
theorem encodeString_length {c : Params} (h : buildOk c = true) (i : Nat) :
    (encodeString c i).length ≤ c.ep0Mps := by
  have hm : ∀ u : List (BitVec 16), (u.flatMap bytes16).length = 2 * u.length := by
    intro u
    induction u with
    | nil => rfl
    | cons a u ih => simp [List.flatMap_cons, bytes16, ih]; omega
  have h8 := ep0Mps_cases h
  simp only [encodeString, encodeUnits, List.length_cons, hm, List.length_take]
  omega

end Sys2Proof.Machine
end

