-- ==== Sys2Proof/Laws/Cdc.lean ====
section
/-! SUPPORT. The vendor hook (Machine/Cdc.lean): what its staging writes and backend calls do, and that its answer
keeps the contract in every configuration that passes the build checks. -/

namespace Sys2Proof.Machine

/-- The staging writes complete; each staging byte holds what was written to it last, no other byte changes, and
nothing but memory does (R410(b)). -/
theorem stagingWrites_ok {s : State} (hok : buildOk s.cfg = true) (hw : memWf s = true)
    (ws : List (Fin 7 × Byte)) :
    ∃ m, stagingWrites s ws = .next { s with mem := m } ∧ memWf { s with mem := m } = true ∧
      (∀ i : Fin 7, peek { s with mem := m } (s.cfg.lcAddr.toNat + i) =
        (lastWrite ws i).getD (peek s (s.cfg.lcAddr.toNat + i))) ∧
      ∀ a, ¬ InRange a s.cfg.lcAddr.toNat 7 → peek { s with mem := m } a = peek s a := by
  induction ws generalizing s with
  | nil => exact ⟨s.mem, rfl, hw, fun _ => rfl, fun _ _ => rfl⟩
  | cons p ws ih =>
    obtain ⟨i, b⟩ := p
    have hin := ram_within hok (lc_mem s.cfg) (a := s.cfg.lcAddr.toNat) (n := 7) (Nat.le_refl _)
      (Nat.le_refl _)
    have hi := i.isLt
    have ha : (s.cfg.lcAddr + BitVec.ofNat 32 i).toNat = s.cfg.lcAddr.toNat + i := by
      simp [BitVec.toNat_add]; omega
    have hw1 := ram_within hok (lc_mem s.cfg) (a := s.cfg.lcAddr.toNat + i) (n := 1) (by simp)
      (by simp; omega)
    have hs := store_ok (s := s) (a := s.cfg.lcAddr + BitVec.ofNat 32 i) (bs := [b])
      (by rw [ha]; exact hw1.1) (by rw [ha]; exact hw1.2)
    have hn := (store_next hs).2.2 hw
    simp only [List.length_cons, List.length_nil] at hn
    obtain ⟨m, h1, h2, h3, h4⟩ := ih
      (s := { s with mem := pokes s.cfg s.mem (s.cfg.lcAddr + BitVec.ofNat 32 i).toNat [b] }) hok hn.1
    refine ⟨m, ?_, h2, fun j => (h3 j).trans ?_, fun a hna => (h4 a hna).trans ?_⟩
    · simp only [stagingWrites, hs, andThen]; exact h1
    · have hb := hn.2 (s.cfg.lcAddr.toNat + j)
      unfold lastWrite
      by_cases hij : i = j
      · subst hij
        rw [if_pos ⟨by omega, by omega⟩,
          show s.cfg.lcAddr.toNat + i.val - (s.cfg.lcAddr + BitVec.ofNat 32 i).toNat = 0 by omega] at hb
        simp only [List.filter_cons, beq_self_eq_true, if_true, List.getLast?_cons]
        cases (List.filter (fun w => w.1 == i) ws).getLast? with
        | none => exact hb
        | some w => simp
      · rw [if_neg (by have : i.val ≠ j.val := fun h => hij (Fin.ext h); omega)] at hb
        have : (i == j) = false := by simpa using hij
        simp only [List.filter_cons, this, Bool.false_eq_true, if_false]
        exact congrArg _ hb
    · rw [hn.2 a, if_neg]
      unfold InRange at hna; omega

/-- Backend calls touch neither memory nor the configuration (R419). -/
theorem backendCalls_frame (s : State) (l : List BackendCall) :
    (l.foldl backendCall s).mem = s.mem ∧ (l.foldl backendCall s).cfg = s.cfg := by
  induction l generalizing s with
  | nil => exact ⟨rfl, rfl⟩
  | cons c l ih => simpa using ih (backendCall s c)

/-- Backend calls do not read memory: they commute with a change of memory. -/
theorem backendCalls_mem (s : State) (m : List (Nat × Byte)) (l : List BackendCall) :
    l.foldl backendCall { s with mem := m } = { l.foldl backendCall s with mem := m } := by
  induction l generalizing s with
  | nil => rfl
  | cons c l ih =>
    have : backendCall { s with mem := m } c = { backendCall s c with mem := m } := by cases c <;> rfl
    simp only [List.foldl_cons, this, ih]

/-- A hook's answer keeps the contract of R410 (R446, R501). -/
theorem vendorReply_ok {c : Params} (h : buildOk c = true) {rows : List HookRow}
    (hr : c.vendorHook = some rows) (p : Setup) (d : DeviceState) :
    hookReplyOk c p.wLength (vendorReply rows p d) = true := by
  simp only [buildOk, Bool.and_eq_true] at h
  have := h.2.2.2.2.2.2.2.2
  simp only [vendorHookOk, hr, Option.getD_some, List.all_eq_true] at this
  unfold vendorReply
  split
  · next r hf =>
    have hm := List.find?_some hf
    simp only [Bool.and_eq_true, beq_iff_eq] at hm
    rw [← hm.1]; exact this r (List.mem_of_find?_eq_some hf)
  · rfl

end Sys2Proof.Machine
end

