-- ==== Sys2Proof/Laws/Operands.lean ====
section
/-! SUPPORT. The operand checks, as propositions about the numbers in the packet (R113, R311, R335, R336). -/

namespace Sys2Proof.Machine

theorem inDefAddrConf_iff {s : State} : inDefAddrConf s = true ↔ DefAddrConf s := by
  simp [inDefAddrConf, DefAddrConf]; tauto

theorem inDefAddrConf_false {s : State} : inDefAddrConf s = false ↔ ¬ DefAddrConf s := by
  rw [← inDefAddrConf_iff]; simp

theorem inConf_iff {s : State} : inConf s = true ↔ s.dev.conn = .configured := by simp [inConf]

theorem inConf_false {s : State} : inConf s = false ↔ s.dev.conn ≠ .configured := by simp [inConf]

theorem inDefAddr_iff {s : State} :
    inDefAddr s = true ↔ s.dev.conn = .default ∨ s.dev.conn = .addressed := by simp [inDefAddr]

theorem inAddrConf_iff {s : State} :
    inAddrConf s = true ↔ s.dev.conn = .addressed ∨ s.dev.conn = .configured := by simp [inAddrConf]

theorem ifTargetOk_iff {c : Params} {x : BitVec 16} : ifTargetOk c x = true ↔ x.toNat % 256 < c.numIf := by
  rw [ifTargetOk, decide_eq_true_eq, lo8, BitVec.extractLsb'_toNat]; rfl

theorem ifTargetOk_false {c : Params} {x : BitVec 16} :
    ifTargetOk c x = false ↔ c.numIf ≤ x.toNat % 256 := by
  rw [← Bool.not_eq_true, ifTargetOk_iff]; omega

theorem cdcTargetOk_iff {c : Params} {x : BitVec 16} :
    cdcTargetOk c x = true ↔ x.toNat % 256 = c.ifCdcComm.toNat := by
  simp only [cdcTargetOk, beq_iff_eq, lo8]
  rw [← BitVec.toNat_inj]
  simp [BitVec.extractLsb'_toNat]

theorem bit_iff (d : Dir) : d.bit = true ↔ d = .tx := by cases d <;> decide

/-- `epCheck` names exactly the endpoint the target does (R335). -/
theorem epCheck_some {s : State} {x : BitVec 16} {e : EpId} :
    epCheck s x = some e ↔ EpTarget s x e := by
  have hb : (lo8 x).getLsbD 7 = decide (x.toNat / 128 % 2 = 1) := by
    simp only [lo8, BitVec.getLsbD, BitVec.extractLsb'_toNat, Nat.testBit, Nat.shiftRight_eq_div_pow]
    rw [Bool.eq_iff_iff]
    simp
    omega
  have h1 : ((lo8 x).extractLsb' 4 3 ≠ 0) ↔ x.toNat / 16 % 8 ≠ 0 := by
    rw [Ne, ← BitVec.toNat_inj]; simp [lo8, BitVec.extractLsb'_toNat, Nat.shiftRight_eq_div_pow]
  have h2 : ((lo8 x).extractLsb' 0 4).toNat = x.toNat % 16 := by
    simp [lo8, BitVec.extractLsb'_toNat]
  unfold epCheck EpTarget
  simp only [h2, hb]
  by_cases hz : x.toNat / 16 % 8 = 0
  · rw [if_neg (by rw [h1]; omega)]
    cases hn : endpointOf s.cfg (x.toNat % 16) with
    | none =>
      simp only [hz]
      constructor
      · intro h; cases h
      · rintro ⟨-, h, hl, -⟩
        have := endpointOf_none.1 hn e h
        omega
    | some f =>
      obtain ⟨hf, hl⟩ := endpointOf_some.1 hn
      have he : ∀ g : EpId, x.toNat % 16 = g.num ↔ f = g := by
        intro g; constructor
        · intro h; exact EpId.num_inj (by omega)
        · intro h; subst h; omega
      simp only [he, hz]
      have hd : ∀ d : Dir, (decide (x.toNat / 128 % 2 = 1) == d.bit) = true ↔
          (x.toNat / 128 % 2 = 1 ↔ d = .tx) := by
        intro d
        cases d <;> simp [Dir.bit]
      by_cases h0 : f = .ep0
      · subst h0
        simp only [if_true, Option.some.injEq]
        constructor
        · rintro rfl; exact ⟨trivial, rfl, hl, fun h => absurd rfl h⟩
        · rintro ⟨-, h, -⟩; exact h
      · simp only [if_neg h0, Bool.and_eq_true, inConf_iff, hd]
        split
        · next hc =>
          simp only [Option.some.injEq]
          constructor
          · rintro rfl; exact ⟨trivial, rfl, hl, fun _ => hc⟩
          · rintro ⟨-, h, -⟩; exact h
        · next hc =>
          simp only [reduceCtorEq, false_iff]
          rintro ⟨-, rfl, -, h⟩; exact hc (h h0)
  · rw [if_pos (by rw [h1]; omega)]
    simp [hz]

theorem epCheck_none {s : State} {x : BitVec 16} :
    epCheck s x = none ↔ ∀ e, ¬ EpTarget s x e := by
  constructor
  · intro h e he
    rw [← epCheck_some, h] at he
    cases he
  · intro h
    cases hc : epCheck s x with
    | none => rfl
    | some e => exact absurd (epCheck_some.1 hc) (h e)

/-- The endpoint a client command names (R233 check 1). -/
theorem clientEp_some {s : State} {e : BitVec 8} {i : EpId} :
    clientEp s e = some i ↔ ClientEp s e i := by
  unfold clientEp ClientEp
  cases hn : endpointOf s.cfg e.toNat with
  | none =>
    constructor
    · intro h; cases h
    · rintro ⟨h, ⟨-, hl⟩, -⟩
      have := endpointOf_none.1 hn i h
      omega
  | some f =>
    obtain ⟨hf, hl⟩ := endpointOf_some.1 hn
    simp only []
    split
    · next hc =>
      simp only [Option.some.injEq]
      constructor
      · rintro rfl; exact ⟨hf, ⟨hc.1, hl⟩, hc.2⟩
      · rintro ⟨h, -⟩; exact EpId.num_inj (by omega)
    · next hc =>
      simp only [reduceCtorEq, false_iff]
      rintro ⟨h, h1, h2⟩
      obtain rfl : f = i := EpId.num_inj (by omega)
      exact hc ⟨h1.1, h2⟩

theorem clientEp_none {s : State} {e : BitVec 8} :
    clientEp s e = none ↔ ∀ i, ¬ ClientEp s e i := by
  constructor
  · intro h i hi
    rw [← clientEp_some, h] at hi
    cases hi
  · intro h
    cases hc : clientEp s e with
    | none => rfl
    | some i => exact absurd (clientEp_some.1 hc) (h i)

/-! ## The endpoints of a role (R7; log 36) -/

theorem hasRole_iff {c : Params} {t : EpType} {d : Dir} {i : BitVec 8} {e : EpId} :
    hasRole c t d i e = true ↔ ∃ m, c.epMap[e.num]? = some ⟨t, .only d, m, some i⟩ := by
  unfold hasRole entryOf
  cases c.epMap[e.num]? with
  | none => simp
  | some x =>
    obtain ⟨t', d', m', i'⟩ := x
    simp [and_assoc]

/-- Endpoint numbers rise along the loop of R329. -/
theorem nonControl_sorted (c : Params) : (nonControl c).Pairwise fun e f => e.num < f.num :=
  List.Pairwise.filter _ (List.Pairwise.filter _ (by decide))

/-- What is found for a role is the endpoint that has it. -/
theorem epOfRole_is {c : Params} {t : EpType} {d : Dir} {i : BitVec 8} {e : EpId}
    (h : epOfRole c t d i = some e) : HasRole c t d i e := by
  obtain ⟨hp, as, bs, hl, hb⟩ := List.find?_eq_some_iff_append.1 h
  have hm : e ∈ nonControl c := by rw [hl]; simp
  refine ⟨mem_nonControl.1 hm, hasRole_iff.1 hp, ?_⟩
  rintro n h1 hn hr
  obtain ⟨f, -, hf⟩ := EpId.ofNat?_of_lt (n := n) (by have := e.num_lt; omega)
  have hfm : f ∈ nonControl c :=
    mem_nonControl.2 ⟨by rintro rfl; simp [EpId.num] at hf; omega, by have := (mem_nonControl.1 hm).2; omega⟩
  have hsort := nonControl_sorted c
  rw [hl] at hfm hsort
  rcases List.mem_append.1 hfm with h' | h'
  · have := hb f h'
    rw [Bool.not_eq_true', ← Bool.not_eq_true, hasRole_iff, hf] at this
    exact this hr
  · rcases List.mem_cons.1 h' with rfl | h'
    · omega
    · have := (List.pairwise_cons.1 (List.pairwise_append.1 hsort).2.1).1 f h'
      omega

theorem epOfRole_none {c : Params} {t : EpType} {d : Dir} {i : BitVec 8} :
    epOfRole c t d i = none ↔ ∀ e, ¬ HasRole c t d i e := by
  constructor
  · intro h e he
    have := List.find?_eq_none.1 h e (mem_nonControl.2 he.1)
    exact this (hasRole_iff.2 he.2.1)
  · intro h
    cases hc : epOfRole c t d i with
    | none => rfl
    | some e => exact absurd (epOfRole_is hc) (h e)

/-- The endpoint of a role is the one that has it, and there is one only. -/
theorem epOfRole_some {c : Params} {t : EpType} {d : Dir} {i : BitVec 8} {e : EpId} :
    epOfRole c t d i = some e ↔ HasRole c t d i e := by
  refine ⟨epOfRole_is, fun h => ?_⟩
  cases hc : epOfRole c t d i with
  | none => exact absurd h (epOfRole_none.1 hc e)
  | some f =>
    obtain ⟨hf0, hfr, hfl⟩ := epOfRole_is hc
    obtain ⟨he0, her, hel⟩ := h
    have pos : ∀ g : EpId, g ≠ .ep0 → 1 ≤ g.num := fun g hg =>
      Nat.one_le_iff_ne_zero.2 fun h0 => hg (EpId.num_inj h0)
    congr 1
    apply EpId.num_inj
    rcases Nat.lt_trichotomy f.num e.num with h | h | h
    · exact absurd hfr (hel _ (pos f hf0.1) h)
    · exact h
    · exact absurd her (hfl _ (pos e he0.1) h)

end Sys2Proof.Machine
end

