-- ==== Sys2Proof/Laws/Requests.lean ====
section
/-! SUPPORT. What the shared operations of a request leave, as the plain records of Safety.lean: the stall, the
stages of a control transfer, the resynchronisation, and the halting and rebuilding of an endpoint. -/

namespace Sys2Proof.Machine

/-- `raiseStall` leaves the protocol-error state of R442. -/
theorem raiseStall_eq (s : State) (c : StallCause) : raiseStall s c = ep0Stalled s c := by
  have h : s.ep.ep0.odd.rx = true ∨ s.ep.ep0.odd.rx = false := by cases s.ep.ep0.odd.rx <;> simp
  rcases h with h | h <;> simp only [raiseStall, stallEp0, ep0Stalled, emit, setEp, EpBank.set, h] <;> rfl

theorem armEp0Rx_eq (s : State) : armEp0Rx s = ep0RxArmed s s.ep.ep0 := rfl

theorem applyNoData_eq (s : State) (cb : Option Callback) : applyNoData s cb = noDataStage s cb := rfl

/-- A failed check stalls with its cause and releases the tokens (R277). -/
theorem finish_fail (bm : Byte) (l : BitVec 16) (s : State) (c : StallCause) :
    finishRequest bm l (fail s c) = .next (stalledRequest s c) := by
  show Host.Outcome.next (sieReleaseTokens (raiseStall s c)) = _
  rw [raiseStall_eq]
  rfl

/-- A request with no data stage arms its status stage and releases the tokens (R276). -/
theorem finish_noData (bm : Byte) (l : BitVec 16) (s : State) (cb : Option Callback) :
    finishRequest bm l (noData s cb) = .next (tokensFree (noDataStage s cb)) := rfl

theorem min_toNat_ofNat (n : Nat) (l : BitVec 16) :
    (BitVec.ofNat 16 (min n l.toNat)).toNat = min n l.toNat := by
  have := l.isLt
  simp only [BitVec.toNat_ofNat]
  omega

/-- A reply arms its IN data stage, cut to wLength, and releases the tokens (R274). -/
theorem finish_dataIn {bm : Byte} (h : bm.getLsbD 7 = true) (l : BitVec 16) (s : State) (a : Addr)
    (n : Nat) (cb : Option Callback) :
    finishRequest bm l (.next (.dataIn a n cb, s)) =
      .next (tokensFree (dataInStage s a (min n l.toNat) cb)) := by
  have hn := min_toNat_ofNat n l
  have hm : ∀ m k : Nat, (min m k < k ↔ m < k) := by omega
  simp only [finishRequest, andThen, applyOutcome, applyDataIn, h, if_true, dataInStage, beginTx, armIn,
    nextPacket, setCursor, setEp, EpBank.set, EpBank.get, mps_ep0, hn, hm]
  rfl

/-- A DataIn outcome of a host-to-device packet stalls with S7 (R274). -/
theorem finish_dataIn_wrong {bm : Byte} (h : bm.getLsbD 7 = false) (l : BitVec 16) (s : State) (a : Addr)
    (n : Nat) (cb : Option Callback) :
    finishRequest bm l (.next (.dataIn a n cb, s)) = .next (stalledRequest s .s7) := by
  simp only [finishRequest, andThen, applyOutcome, applyDataIn, h, raiseStall_eq]
  rfl

/-- A DataOut outcome starts an OUT data stage of wLength bytes, or has none if that is 0 (R275). -/
theorem finish_dataOut {bm : Byte} (h : bm.getLsbD 7 = false) (l : BitVec 16) (s : State) (a : Addr)
    (cb : Option Callback) :
    finishRequest bm l (.next (.dataOut a cb, s)) =
      .next (tokensFree (if l = 0 then noDataStage s cb else dataOutStage s a l cb)) := by
  simp only [finishRequest, andThen, applyOutcome, applyDataOut, h, Bool.false_eq_true, if_false]
  split <;> rfl

/-- A DataOut outcome of a device-to-host packet stalls with S7 (R275). -/
theorem finish_dataOut_wrong {bm : Byte} (h : bm.getLsbD 7 = true) (l : BitVec 16) (s : State) (a : Addr)
    (cb : Option Callback) :
    finishRequest bm l (.next (.dataOut a cb, s)) = .next (stalledRequest s .s7) := by
  simp only [finishRequest, andThen, applyOutcome, applyDataOut, h, if_true, raiseStall_eq]
  rfl

/-- A stage of EP0 does not read memory: it commutes with a change of memory. -/
theorem dataInStage_mem (s : State) (m : List (Nat × Byte)) (a : Addr) (n : Nat) (cb : Option Callback) :
    tokensFree (dataInStage { s with mem := m } a n cb) =
      { tokensFree (dataInStage s a n cb) with mem := m } := rfl

/-- A reply whose bytes are stored first: the stage armed, the bytes stored, nothing else changed. -/
theorem finish_stored {bm : Byte} (h : bm.getLsbD 7 = true) (l : BitVec 16) {s : State} {a : Addr}
    {b : List Byte} (hw : memWf s = true)
    (hs : store s a b = .next { s with mem := pokes s.cfg s.mem a.toNat b }) :
    ∃ t, finishRequest bm l (andThen (store s a b) fun s' => .next (.dataIn a b.length none, s')) = .next t ∧
      IsButStored s (tokensFree (dataInStage s a (min b.length l.toNat) none)) t a b := by
  have hb := (store_next hs).2.2 hw
  rw [hs]
  simp only [andThen]
  rw [finish_dataIn h, dataInStage_mem]
  refine ⟨_, rfl, rfl, fun x => ?_⟩
  exact hb.2 x

/-- The reply of a few staged bytes (R310). -/
theorem finish_staged {bm : Byte} (h : bm.getLsbD 7 = true) (l : BitVec 16) {s : State} {b : List Byte}
    (hok : buildOk s.cfg = true) (hw : memWf s = true) (hb : b.length ≤ 8) :
    ∃ t, finishRequest bm l (replyStaged s b) = .next t ∧
      IsButStored s
        (tokensFree (dataInStage s (bufAddr s.cfg .ep0 .tx s.ep.ep0.odd.tx) (min b.length l.toNat) none)) t
        (bufAddr s.cfg .ep0 .tx s.ep.ep0.odd.tx) b :=
  finish_stored h l hw
    (store_buf hok (ep0_lt hok) .tx s.ep.ep0.odd.tx (by have := ep0Mps_cases hok; rw [mps_ep0]; omega))

/-- The SETUP handler's resynchronisation (R272). -/
theorem resyncEp0_eq (s : State) (p : Setup) : resyncEp0 { s with setup := p } = setupResynced s p := rfl

theorem filter_dirs (q : List Completion) (e : EpId) :
    (q.filter fun c => !(ofEp c e && c.dir == .rx)).filter (fun c => !(ofEp c e && c.dir == .tx)) =
      q.filter fun c => !(c.ep.toNat == e.num) := by
  rw [List.filter_filter]
  congr 1
  funext c
  cases hd : c.dir <;> simp [ofEp]

/-- `stallEp` and `clearStallEp` of an endpoint other than EP0 (R238, R239). -/
theorem haltReset_eq (s : State) (e : EpId) (st : Bool) (p : Phase) :
    haltReset s e st p = epHalted s e st p := by
  have hq := filter_dirs s.sie.tokq e
  cases e <;> simp only [haltReset, epHalted, epReinit, sieResetEndpoint, sieResetDir, setSie, reclaim, setSlots,
    setEp, purged, hq] <;> rfl

theorem rebuild_eq (s : State) (e : EpId) (b : Bool) :
    rebuild s e b = epReinit s e (epRebuilt (s.ep.get e) b) (slotsFreed (s.bdt.get e)) := by
  have hq := filter_dirs s.sie.tokq e
  cases e <;> simp only [rebuild, epReinit, sieResetEndpoint, sieResetDir, setSie, reclaim, setSlots,
    setEp, purged, hq] <;> rfl

/-- A list of endpoints rebuilt or torn down one by one: each of them once (R330). -/
theorem foldl_rebuild_list (l : List EpId) (s : State) (b : Bool) :
    l.foldl (fun s e => rebuild s e b) s = { s with
      ep := EpBank.tabulate fun e => if e ∈ l then epRebuilt (s.ep.get e) b else s.ep.get e
      bdt := EpBank.tabulate fun e => if e ∈ l then slotsFreed (s.bdt.get e) else s.bdt.get e
      sie := { s.sie with
        odd := EpBank.tabulate fun e => if e ∈ l then ⟨false, false⟩ else s.sie.odd.get e
        tokq := s.sie.tokq.filter fun q => !(l.any fun e => q.ep.toNat == e.num) } } := by
  induction l generalizing s with
  | nil => simp
  | cons a l ih =>
    rw [List.foldl_cons, ih, rebuild_eq]
    simp only [epReinit, purged, List.filter_filter, EpBank.get_set, List.mem_cons, List.any_cons, Bool.not_or]
    congr 1
    · congr 1; funext e
      by_cases h : e = a <;> by_cases hl : e ∈ l <;> simp [h, hl, epRebuilt]
    · congr 1; funext e
      by_cases h : e = a <;> by_cases hl : e ∈ l <;> simp [h, hl, slotsFreed]
    · congr 1
      · congr 1; funext e
        by_cases h : e = a <;> by_cases hl : e ∈ l <;> simp [h, hl]
      · congr 1; funext q; rw [Bool.and_comm]

/-- Every endpoint other than EP0 rebuilt or torn down (R329, R330). -/
theorem foldl_rebuild_eq (s : State) (b : Bool) :
    (nonControl s.cfg).foldl (fun s e => rebuild s e b) s = allRebuilt s b := by
  rw [foldl_rebuild_list]
  simp only [mem_nonControl, allRebuilt]
  congr 3
  funext q
  congr 1
  rw [Bool.eq_iff_iff]
  simp only [List.any_eq_true, mem_nonControl, beq_iff_eq, Bool.and_eq_true, decide_eq_true_eq]
  constructor
  · rintro ⟨e, ⟨h0, hn⟩, hq⟩
    have : e.num ≠ 0 := fun h => h0 (EpId.num_inj h)
    omega
  · rintro ⟨h1, hn⟩
    obtain ⟨e, -, he⟩ := EpId.ofNat?_of_lt (n := q.ep.toNat) q.ep.isLt
    exact ⟨e, ⟨by rintro rfl; simp [EpId.num] at he; omega, by omega⟩, he.symm⟩

/-- R57 follows from its form for each endpoint, because EP1 is an endpoint of every configuration. -/
theorem enabledInv_of_each {s : State} (hok : buildOk s.cfg = true)
    (h : ∀ e, e ≠ .ep0 → ((s.ep.get e).enabled = true ↔ s.dev.config = 1 ∧ e.num < s.cfg.numEp)) :
    EnabledInv s :=
  ⟨h, fun ⟨e, he, hx⟩ => ((h e he).1 hx).1,
    fun hc => ⟨.ep1, by decide, (h .ep1 (by decide)).2 ⟨hc, (numEp_range hok).1⟩⟩⟩

end Sys2Proof.Machine
end

