-- ==== Sys2Proof/Laws/Client.lean ====
section
/-! SUPPORT. The client's checks and transfer starts (Machine/Operands.lean, Machine/Client.lean) as the records of
Safety.lean: each lemma says once what one of them answers. -/

namespace Sys2Proof.Machine

/-- A client endpoint has the direction of the map (R31). -/
theorem hasDir_iff {c : Params} {i : EpId} (h : i ≠ .ep0) (d : Dir) :
    hasDir c i d = true ↔ dirOf c i = d := by
  simp [hasDir, h]

/-- A range meets no armed buffer (R494(b)). -/
theorem meetsArmed_false {s : State} {a n : Nat} :
    meetsArmed s a n = false ↔ ∀ e g k, (slot s e g k).own = true →
      meets ⟨(slot s e g k).addr.toNat, (slot s e g k).bc.toNat⟩ a n = false := by
  rw [← Bool.not_eq_true, meetsArmed, List.any_eq_true]
  constructor
  · intro h e g k ho
    by_contra hc
    exact h ⟨e, mem_allEps e, List.any_eq_true.2 ⟨g, by cases g <;> simp,
      List.any_eq_true.2 ⟨k, by cases k <;> simp, by simp [ho, Bool.not_eq_false _ ▸ hc]⟩⟩⟩
  · rintro h ⟨e, -, he⟩
    obtain ⟨g, -, hg⟩ := List.any_eq_true.1 he
    obtain ⟨k, -, hk⟩ := List.any_eq_true.1 hg
    simp only [Bool.and_eq_true] at hk
    rw [h e g k hk.1] at hk
    exact absurd hk.2 (by simp)

/-- What the buffer check admits (R494). -/
theorem clientBufOk_iff {s : State} {d : Dir} {buf : Addr} {len : BitVec 16} :
    clientBufOk s d buf len = true ↔ BufAdmitted s d buf len := by
  unfold clientBufOk BufAdmitted
  rw [Bool.or_eq_true, beq_iff_eq, Bool.and_eq_true, Bool.and_eq_true, decide_eq_true_eq, Bool.or_eq_true,
    Bool.and_eq_true, Bool.not_eq_true', Bool.not_eq_true', Bool.not_eq_true', meetsArmed_false]
  simp only [List.any_eq_false, Bool.not_eq_true, and_assoc, beq_iff_eq]
  cases d <;> simp

/-- On no client endpoint a start is a fault F2 (R233 check 1). -/
theorem startCheck_none {s : State} {e : BitVec 8} {d : Dir} {len : BitVec 16} {buf : Addr}
    (h : ∀ i, ¬ ClientEp s e i) : startCheck s e d len buf = .error .f2 := by
  unfold startCheck
  rw [clientEp_none.2 h]

/-- On a client endpoint the other checks follow in order: F5, F1, F3 (R233). -/
theorem startCheck_some {s : State} {e : BitVec 8} {i : EpId} {d : Dir} {len : BitVec 16} {buf : Addr}
    (h : ClientEp s e i) : startCheck s e d len buf =
      if dirOf s.cfg i ≠ d then .error .f5
      else if (s.ep.get i).phase ≠ .idle then .error .f1
      else if buf = 0 ∧ mps s.cfg i < len.toNat then .error .f3
      else .ok i := by
  unfold startCheck
  rw [clientEp_some.2 h]
  simp only []
  have := hasDir_iff (c := s.cfg) h.2.1.1 d
  by_cases hd : dirOf s.cfg i = d
  · simp [hd, this.2 hd]
  · rw [if_pos, if_pos hd]
    rw [← Bool.not_eq_true, this]
    exact hd

/-- The start of an IN transfer (R233). -/
theorem beginTx_eq (s : State) (i : EpId) (buf : Addr) (len : BitVec 16) :
    beginTx s i len (transferAddr s i .tx buf) = transferBegun s i .tx buf len := by
  cases i <;> rfl

/-- The start of an OUT transfer (R234). -/
theorem beginRx_eq (s : State) (i : EpId) (buf : Addr) (len : BitVec 16) :
    beginRx s i len (transferAddr s i .rx buf) = transferBegun s i .rx buf len := by
  cases i <;> rfl

/-- The low byte of a 16-bit field. -/
theorem lo8_eq (v : BitVec 16) : lo8 v = BitVec.ofNat 8 v.toNat := by
  apply BitVec.eq_of_toNat_eq
  simp [lo8, BitVec.extractLsb'_toNat]

/-- The high byte of a 16-bit field. -/
theorem hi8_eq (v : BitVec 16) : hi8 v = BitVec.ofNat 8 (v.toNat / 256) := by
  apply BitVec.eq_of_toNat_eq
  simp [hi8, BitVec.extractLsb'_toNat, Nat.shiftRight_eq_div_pow]

end Sys2Proof.Machine
end

