-- ==== Sys2Proof/Laws/Engine.lean ====
section
/-! SUPPORT. What the transfer engine's shared operations do: a callback's firing, the check of a completion,
the IN handler, and what an installed SOF hook emits. -/

namespace Sys2Proof.Machine

/-- Firing a callback always completes: it takes the callback out and runs it (R237). -/
theorem fire_eq {s : State} (hok : buildOk s.cfg = true) (e : EpId) :
    fireCallback s e = .next (callbackRan
      { s with ep := s.ep.set e { s.ep.get e with callback := none } } e (s.ep.get e).callback) := by
  cases hc : (s.ep.get e).callback with
  | none => simp only [fireCallback, hc]; rfl
  | some c =>
    cases c with
    | commitAddress => simp only [fireCallback, hc]; rfl
    | client id => simp only [fireCallback, hc, callbackRan]; simp [emit, setCb, setEp]
    | vendor id => simp only [fireCallback, hc, callbackRan]; simp [emit, setCb, setEp]
    | applyLineCoding =>
      simp only [fireCallback, hc, applyLineCoding, callbackRan]
      have : load (setCb s e none) (setCb s e none).cfg.lcAddr 7 = _ :=
        load_lc (s := setCb s e none) hok
      rw [this]
      simp only [andThen]
      have hx : (setCb s e none).ep.ep0.xferred =
        ({ s with ep := s.ep.set e { s.ep.get e with callback := none } } : State).ep.ep0.xferred := rfl
      rw [hx]
      split <;> rfl

/-- An expected completion is served (R372). -/
theorem served {s : State} {e : EpId} {d : Dir} {k : Bool} {pid : BitVec 4}
    (h : Completed s e d k pid) (hp : phaseExpects e pid (s.ep.get e).phase = true) (r : Res) :
    serve s e d k pid r = r := by
  obtain ⟨h1, h2, h3, h4⟩ := h
  unfold serve
  rw [if_pos]
  simp [expected, h1, h2.symm, h3, h4, hp]

/-- An unexpected completion is dropped with F4 (R372, R443). -/
theorem not_served {s : State} {e : EpId} {d : Dir} {k : Bool} {pid : BitVec 4}
    (h : ¬ (Completed s e d k pid ∧ phaseExpects e pid (s.ep.get e).phase = true)) (r : Res) :
    serve s e d k pid r = .next (faulted s .f4) := by
  unfold serve
  rw [if_neg]
  · rfl
  · intro hx
    apply h
    simp only [expected, Bool.and_eq_true, beq_iff_eq, Bool.not_eq_true'] at hx
    exact ⟨⟨hx.1.1.1.1, hx.1.1.1.2, hx.1.1.2, hx.1.2⟩, hx.2⟩

/-- A completion of an endpoint of the map other than EP0 goes through `serve`. -/
theorem serveEpn_eq {s : State} {ep : BitVec 4} {e : EpId} (he : Other s.cfg e) (hn : ep.toNat = e.num)
    (d : Dir) (k : Bool) (pid : BitVec 4) (h : EpId → Res) :
    serveEpn s ep d k pid h = serve s e d k pid (h e) := by
  unfold serveEpn
  rw [endpointOf_some.2 ⟨hn, he.2⟩]
  exact if_neg he.1

/-- The IN handler in DataIn arms the next packet (R235). -/
theorem handleIn_dataIn (s : State) (e : EpId) (k : Bool) (hp : (s.ep.get e).phase = .dataIn) :
    handleIn s e k = .next (packetArmed s e .tx (packetDone (s.ep.get e) .tx (slot s e .tx k).bc
      (inPhase s.cfg e (min ((s.ep.get e).remaining - (slot s e .tx k).bc.setWidth 16).toNat
        (mps s.cfg e))))) := by
  simp only [handleIn]
  rw [show (advance (flipDir (s.ep.get e) .tx) (slot s e .tx k).bc).phase = .dataIn from hp]
  cases e <;> rfl

/-- The IN handler in LastIn and StatusIn ends the stage and fires the callback (R235). -/
theorem handleIn_end {s : State} (hok : buildOk s.cfg = true) (e : EpId) (k : Bool) (p q : Phase)
    (hp : (s.ep.get e).phase = p)
    (hq : (p = .lastIn ∧ q = if e = .ep0 then .statusOut else .idle) ∨ (p = .statusIn ∧ q = .idle)) :
    handleIn s e k =
      .next (finished s e (packetDone (s.ep.get e) .tx (slot s e .tx k).bc q)) := by
  simp only [handleIn]
  rw [show (advance (flipDir (s.ep.get e) .tx) (slot s e .tx k).bc).phase = p from hp]
  rcases hq with ⟨rfl, rfl⟩ | ⟨rfl, rfl⟩ <;> simp only [] <;> rw [fire_eq (by exact hok)] <;>
    simp only [setPhase, setEp, EpBank.get_set_self, EpBank.set_set] <;> rfl

/-- The setup packet the SETUP handler copies out (R272). -/
theorem setup_ofList (s : State) (a : Nat) : Setup.ofList? (peeks s a 8) = some (setupAt s a) := by
  simp [peeks, Setup.ofList?, setupAt, Nat.add_assoc]

/-- A list of output events emitted in order (R376). -/
theorem foldl_emit (s : State) (l : List OutEvent) : l.foldl emit s = { s with out := s.out ++ l } := by
  induction l generalizing s with
  | nil => simp
  | cons a l ih => simp [ih, emit]

end Sys2Proof.Machine
end

