-- ==== Sys2Proof/Laws/PerInstr.lean ====
section
/-! SUPPORT. The per-instruction family RowMatch: a well-formed operation's word, its first four encoded bytes
least significant first, matches its row of the opcode table on the row's mask (R114, R127, R139). -/

namespace Sys2Proof

/-- The first four bytes of a word, least significant first, bytes past its end being 0. -/
def tableWord (bs : List Byte) : BitVec 32 :=
  le32 ((bs[0]?).getD 0) ((bs[1]?).getD 0) ((bs[2]?).getD 0) ((bs[3]?).getD 0)

/-- RowMatch: the row is one of the table and the encoded word matches it. -/
def Laws.RowMatch.Statement (i : Instr) : Prop :=
  i.wf = true → i.row ∈ opcodeTable ∧ tableWord (encode i) &&& i.row.mask = i.row.pattern

namespace Laws.RowMatch

theorem getLsbD_le32 (b0 b1 b2 b3 : Byte) (i : Nat) :
    (le32 b0 b1 b2 b3).getLsbD i =
      if i < 8 then b0.getLsbD i else if i < 16 then b1.getLsbD (i - 8)
      else if i < 24 then b2.getLsbD (i - 16) else b3.getLsbD (i - 24) := by
  show (b3 ++ b2 ++ b1 ++ b0 : BitVec (8 + 8 + 8 + 8)).getLsbD i = _
  rw [BitVec.getLsbD_append, BitVec.getLsbD_append, BitVec.getLsbD_append, Nat.sub_sub, Nat.sub_sub]
  split_ifs <;> first | rfl | omega

/-- A mask on a word, byte by byte. -/
theorem le32_mask (m : BitVec 32) (b0 b1 b2 b3 : Byte) :
    le32 b0 b1 b2 b3 &&& m = le32 (b0 &&& m.extractLsb' 0 8) (b1 &&& m.extractLsb' 8 8)
      (b2 &&& m.extractLsb' 16 8) (b3 &&& m.extractLsb' 24 8) := by
  apply BitVec.eq_of_getLsbD_eq
  intro i hi
  rw [BitVec.getLsbD_and, getLsbD_le32, getLsbD_le32]
  simp only [BitVec.getLsbD_and, BitVec.getLsbD_extractLsb']
  split_ifs with h1 h2 h3
  · simp [h1]
  · rw [show 8 + (i - 8) = i by omega, show decide (i - 8 < 8) = true by simp; omega]; simp
  · rw [show 16 + (i - 16) = i by omega, show decide (i - 16 < 8) = true by simp; omega]; simp
  · rw [show 24 + (i - 24) = i by omega, show decide (i - 24 < 8) = true by simp; omega]; simp

theorem and_ones (b : Byte) : b &&& 0xFF#8 = b := BitVec.and_allOnes

theorem and_zero (b : Byte) : b &&& 0x00#8 = 0 := BitVec.and_zero

theorem and_type (b : Byte) : b &&& 0x60#8 = 0#1 ++ typeBits b ++ 0#5 := by
  revert b; decide +kernel

theorem le32_mask16 (b0 b1 b2 b3 : Byte) :
    le32 b0 b1 b2 b3 &&& (0x0000FFFF : BitVec 32) = le32 b0 b1 0 0 := by
  rw [le32_mask]
  exact congr (congr (congr (congrArg le32 (and_ones b0)) (and_ones b1)) (and_zero b2)) (and_zero b3)

theorem le32_maskDesc (b0 b1 b2 b3 : Byte) :
    le32 b0 b1 b2 b3 &&& (0xFF00FFFF : BitVec 32) = le32 b0 b1 0 b3 := by
  rw [le32_mask]
  exact congr (congr (congr (congrArg le32 (and_ones b0)) (and_ones b1)) (and_zero b2)) (and_ones b3)

theorem le32_mask8 (b0 b1 b2 b3 : Byte) : le32 b0 b1 b2 b3 &&& (0xFF : BitVec 32) = le32 b0 0 0 0 := by
  rw [le32_mask]
  exact congr (congr (congr (congrArg le32 (and_ones b0)) (and_zero b1)) (and_zero b2)) (and_zero b3)

theorem le32_maskType (b0 b1 b2 b3 : Byte) :
    le32 b0 b1 b2 b3 &&& (0x60 : BitVec 32) = le32 (0#1 ++ typeBits b0 ++ 0#5) 0 0 0 := by
  rw [le32_mask]
  exact congr (congr (congr (congrArg le32 (and_type b0)) (and_zero b1)) (and_zero b2)) (and_zero b3)

theorem hi8_le16 (a b : Byte) : hi8 (le16 a b) = b := by
  apply BitVec.eq_of_getLsbD_eq
  intro i hi
  show ((b ++ a : BitVec (8 + 8)).extractLsb' 8 8).getLsbD i = b.getLsbD i
  rw [BitVec.getLsbD_extractLsb', BitVec.getLsbD_append, if_neg (by omega), decide_eq_true hi,
    Bool.true_and, Nat.add_sub_cancel_left]

theorem getStatusDevice (wValue wIndex wLength : BitVec 16) :
    Statement (.getStatusDevice wValue wIndex wLength) := fun _ =>
  ⟨by simp [opcodeTable, standardRows, Instr.row], by simp only [Instr.row, tableWord, le32_mask16]; show le32 0x80 0x0 0 0 = 0x00000080; decide⟩

theorem getStatusInterface (wValue wIndex wLength : BitVec 16) :
    Statement (.getStatusInterface wValue wIndex wLength) := fun _ =>
  ⟨by simp [opcodeTable, standardRows, Instr.row], by simp only [Instr.row, tableWord, le32_mask16]; show le32 0x81 0x0 0 0 = 0x00000081; decide⟩

theorem getStatusEndpoint (wValue wIndex wLength : BitVec 16) :
    Statement (.getStatusEndpoint wValue wIndex wLength) := fun _ =>
  ⟨by simp [opcodeTable, standardRows, Instr.row], by simp only [Instr.row, tableWord, le32_mask16]; show le32 0x82 0x0 0 0 = 0x00000082; decide⟩

theorem clearFeatureDevice (wValue wIndex wLength : BitVec 16) :
    Statement (.clearFeatureDevice wValue wIndex wLength) := fun _ =>
  ⟨by simp [opcodeTable, standardRows, Instr.row], by simp only [Instr.row, tableWord, le32_mask16]; show le32 0x0 0x1 0 0 = 0x00000100; decide⟩

theorem clearFeatureInterface (wValue wIndex wLength : BitVec 16) :
    Statement (.clearFeatureInterface wValue wIndex wLength) := fun _ =>
  ⟨by simp [opcodeTable, standardRows, Instr.row], by simp only [Instr.row, tableWord, le32_mask16]; show le32 0x1 0x1 0 0 = 0x00000101; decide⟩

theorem clearFeatureEndpoint (wValue wIndex wLength : BitVec 16) :
    Statement (.clearFeatureEndpoint wValue wIndex wLength) := fun _ =>
  ⟨by simp [opcodeTable, standardRows, Instr.row], by simp only [Instr.row, tableWord, le32_mask16]; show le32 0x2 0x1 0 0 = 0x00000102; decide⟩

theorem setFeatureDevice (wValue wIndex wLength : BitVec 16) :
    Statement (.setFeatureDevice wValue wIndex wLength) := fun _ =>
  ⟨by simp [opcodeTable, standardRows, Instr.row], by simp only [Instr.row, tableWord, le32_mask16]; show le32 0x0 0x3 0 0 = 0x00000300; decide⟩

theorem setFeatureInterface (wValue wIndex wLength : BitVec 16) :
    Statement (.setFeatureInterface wValue wIndex wLength) := fun _ =>
  ⟨by simp [opcodeTable, standardRows, Instr.row], by simp only [Instr.row, tableWord, le32_mask16]; show le32 0x1 0x3 0 0 = 0x00000301; decide⟩

theorem setFeatureEndpoint (wValue wIndex wLength : BitVec 16) :
    Statement (.setFeatureEndpoint wValue wIndex wLength) := fun _ =>
  ⟨by simp [opcodeTable, standardRows, Instr.row], by simp only [Instr.row, tableWord, le32_mask16]; show le32 0x2 0x3 0 0 = 0x00000302; decide⟩

theorem setAddress (wValue wIndex wLength : BitVec 16) :
    Statement (.setAddress wValue wIndex wLength) := fun _ =>
  ⟨by simp [opcodeTable, standardRows, Instr.row], by simp only [Instr.row, tableWord, le32_mask16]; show le32 0x0 0x5 0 0 = 0x00000500; decide⟩

theorem getDescriptorDevice (descIndex : BitVec 8) (wIndex wLength : BitVec 16) :
    Statement (.getDescriptorDevice descIndex wIndex wLength) := fun _ =>
  ⟨by simp [opcodeTable, standardRows, Instr.row], by
    simp only [Instr.row, tableWord, le32_maskDesc]
    show le32 0x80 0x06 0 (hi8 (le16 _ _)) = _
    rw [hi8_le16]
    decide⟩

theorem getDescriptorConfiguration (descIndex : BitVec 8) (wIndex wLength : BitVec 16) :
    Statement (.getDescriptorConfiguration descIndex wIndex wLength) := fun _ =>
  ⟨by simp [opcodeTable, standardRows, Instr.row], by
    simp only [Instr.row, tableWord, le32_maskDesc]
    show le32 0x80 0x06 0 (hi8 (le16 _ _)) = _
    rw [hi8_le16]
    decide⟩

theorem getDescriptorString (descIndex : BitVec 8) (wIndex wLength : BitVec 16) :
    Statement (.getDescriptorString descIndex wIndex wLength) := fun _ =>
  ⟨by simp [opcodeTable, standardRows, Instr.row], by
    simp only [Instr.row, tableWord, le32_maskDesc]
    show le32 0x80 0x06 0 (hi8 (le16 _ _)) = _
    rw [hi8_le16]
    decide⟩

theorem getDescriptorOther (descType descIndex : BitVec 8) (wIndex wLength : BitVec 16) :
    Statement (.getDescriptorOther descType descIndex wIndex wLength) := fun _ =>
  ⟨by simp [opcodeTable, standardRows, Instr.row], by simp only [Instr.row, tableWord, le32_mask16]; show le32 0x80 0x6 0 0 = 0x00000680; decide⟩

theorem setDescriptor (wValue wIndex wLength : BitVec 16) :
    Statement (.setDescriptor wValue wIndex wLength) := fun _ =>
  ⟨by simp [opcodeTable, standardRows, Instr.row], by simp only [Instr.row, tableWord, le32_mask16]; show le32 0x0 0x7 0 0 = 0x00000700; decide⟩

theorem getConfiguration (wValue wIndex wLength : BitVec 16) :
    Statement (.getConfiguration wValue wIndex wLength) := fun _ =>
  ⟨by simp [opcodeTable, standardRows, Instr.row], by simp only [Instr.row, tableWord, le32_mask16]; show le32 0x80 0x8 0 0 = 0x00000880; decide⟩

theorem setConfiguration (wValue wIndex wLength : BitVec 16) :
    Statement (.setConfiguration wValue wIndex wLength) := fun _ =>
  ⟨by simp [opcodeTable, standardRows, Instr.row], by simp only [Instr.row, tableWord, le32_mask16]; show le32 0x0 0x9 0 0 = 0x00000900; decide⟩

theorem getInterface (wValue wIndex wLength : BitVec 16) :
    Statement (.getInterface wValue wIndex wLength) := fun _ =>
  ⟨by simp [opcodeTable, standardRows, Instr.row], by simp only [Instr.row, tableWord, le32_mask16]; show le32 0x81 0xa 0 0 = 0x00000A81; decide⟩

theorem setInterface (wValue wIndex wLength : BitVec 16) :
    Statement (.setInterface wValue wIndex wLength) := fun _ =>
  ⟨by simp [opcodeTable, standardRows, Instr.row], by simp only [Instr.row, tableWord, le32_mask16]; show le32 0x1 0xb 0 0 = 0x00000B01; decide⟩

theorem synchFrame (wValue wIndex wLength : BitVec 16) :
    Statement (.synchFrame wValue wIndex wLength) := fun _ =>
  ⟨by simp [opcodeTable, standardRows, Instr.row], by simp only [Instr.row, tableWord, le32_mask16]; show le32 0x82 0xc 0 0 = 0x00000C82; decide⟩

theorem stdUnmatched (bmRequestType bRequest : BitVec 8) (wValue wIndex wLength : BitVec 16) :
    Statement (.stdUnmatched bmRequestType bRequest wValue wIndex wLength) := by
  intro h
  refine ⟨by simp [opcodeTable, standardRows, classRows, Instr.row], ?_⟩
  simp only [Instr.row, tableWord, le32_maskType]
  have ht : typeBits bmRequestType = 0 := by
    simp only [Instr.wf, Bool.and_eq_true, beq_iff_eq] at h
    exact h.1
  show le32 (0#1 ++ typeBits bmRequestType ++ 0#5) 0 0 0 = _
  rw [ht]
  decide

theorem cdcSetLineCoding (wValue wIndex wLength : BitVec 16) :
    Statement (.cdcSetLineCoding wValue wIndex wLength) := fun _ =>
  ⟨by simp [opcodeTable, classRows, Instr.row], by simp only [Instr.row, tableWord, le32_mask16]; show le32 0x21 0x20 0 0 = 0x00002021; decide⟩

theorem cdcGetLineCoding (wValue wIndex wLength : BitVec 16) :
    Statement (.cdcGetLineCoding wValue wIndex wLength) := fun _ =>
  ⟨by simp [opcodeTable, classRows, Instr.row], by simp only [Instr.row, tableWord, le32_mask16]; show le32 0xa1 0x21 0 0 = 0x000021A1; decide⟩

theorem cdcSetControlLineState (wValue wIndex wLength : BitVec 16) :
    Statement (.cdcSetControlLineState wValue wIndex wLength) := fun _ =>
  ⟨by simp [opcodeTable, classRows, Instr.row], by simp only [Instr.row, tableWord, le32_mask16]; show le32 0x21 0x22 0 0 = 0x00002221; decide⟩

theorem cdcSendBreak (wValue wIndex wLength : BitVec 16) :
    Statement (.cdcSendBreak wValue wIndex wLength) := fun _ =>
  ⟨by simp [opcodeTable, classRows, Instr.row], by simp only [Instr.row, tableWord, le32_mask16]; show le32 0x21 0x23 0 0 = 0x00002321; decide⟩

theorem classUnmatched (bmRequestType bRequest : BitVec 8) (wValue wIndex wLength : BitVec 16) :
    Statement (.classUnmatched bmRequestType bRequest wValue wIndex wLength) := by
  intro h
  refine ⟨by simp [opcodeTable, standardRows, classRows, Instr.row], ?_⟩
  simp only [Instr.row, tableWord, le32_maskType]
  have ht : typeBits bmRequestType = 1 := by
    simp only [Instr.wf, Bool.and_eq_true, beq_iff_eq] at h
    exact h.1
  show le32 (0#1 ++ typeBits bmRequestType ++ 0#5) 0 0 0 = _
  rw [ht]
  decide

theorem vendorRequest (bmRequestType bRequest : BitVec 8) (wValue wIndex wLength : BitVec 16) :
    Statement (.vendorRequest bmRequestType bRequest wValue wIndex wLength) := by
  intro h
  refine ⟨by simp [opcodeTable, standardRows, classRows, Instr.row], ?_⟩
  simp only [Instr.row, tableWord, le32_maskType]
  have ht : typeBits bmRequestType = 2 := by
    simpa only [Instr.wf, beq_iff_eq] using h
  show le32 (0#1 ++ typeBits bmRequestType ++ 0#5) 0 0 0 = _
  rw [ht]
  decide

theorem reservedType (bmRequestType bRequest : BitVec 8) (wValue wIndex wLength : BitVec 16) :
    Statement (.reservedType bmRequestType bRequest wValue wIndex wLength) := by
  intro h
  refine ⟨by simp [opcodeTable, standardRows, classRows, Instr.row], ?_⟩
  simp only [Instr.row, tableWord, le32_maskType]
  have ht : typeBits bmRequestType = 3 := by
    simpa only [Instr.wf, beq_iff_eq] using h
  show le32 (0#1 ++ typeBits bmRequestType ++ 0#5) 0 0 0 = _
  rw [ht]
  decide

theorem tokSetupEp0 (odd : Bool) :
    Statement (.tokSetupEp0 odd) := by unfold Statement; cases odd <;> decide

theorem tokOutEp0 (odd : Bool) :
    Statement (.tokOutEp0 odd) := by unfold Statement; cases odd <;> decide

theorem tokInEp0 (odd : Bool) :
    Statement (.tokInEp0 odd) := by unfold Statement; cases odd <;> decide

theorem tokOutEpn (ep : BitVec 4) (odd : Bool) :
    Statement (.tokOutEpn ep odd) := by unfold Statement; cases odd <;> revert ep <;> decide +kernel

theorem tokInEpn (ep : BitVec 4) (odd : Bool) :
    Statement (.tokInEpn ep odd) := by unfold Statement; cases odd <;> revert ep <;> decide +kernel

theorem tokSetupEpn (ep : BitVec 4) (odd : Bool) :
    Statement (.tokSetupEpn ep odd) := by unfold Statement; cases odd <;> revert ep <;> decide +kernel

theorem evUsbrst :
    Statement .evUsbrst := by unfold Statement; decide

theorem evError :
    Statement .evError := by unfold Statement; decide

theorem evSoftok :
    Statement .evSoftok := by unfold Statement; decide

theorem evTokdne :
    Statement .evTokdne := by unfold Statement; decide

theorem evSleep :
    Statement .evSleep := by unfold Statement; decide

theorem evResume (genuine : Bool) :
    Statement (.evResume genuine) := by unfold Statement; cases genuine <;> decide

theorem evStall :
    Statement .evStall := by unfold Statement; decide

theorem startTx (e : BitVec 8) (len : BitVec 16) (buf : BitVec 32) :
    Statement (.startTx e len buf) := fun _ => ⟨by simp [opcodeTable, commandRows, Instr.row], by simp only [Instr.row, tableWord, le32_mask8]; show le32 0x1 0 0 0 = 0x01; decide⟩

theorem startRx (e : BitVec 8) (len : BitVec 16) (buf : BitVec 32) :
    Statement (.startRx e len buf) := fun _ => ⟨by simp [opcodeTable, commandRows, Instr.row], by simp only [Instr.row, tableWord, le32_mask8]; show le32 0x2 0 0 0 = 0x02; decide⟩

theorem stall (e : BitVec 8) :
    Statement (.stall e) := fun _ => ⟨by simp [opcodeTable, commandRows, Instr.row], by simp only [Instr.row, tableWord, le32_mask8]; show le32 0x3 0 0 0 = 0x03; decide⟩

theorem clearStall (e : BitVec 8) :
    Statement (.clearStall e) := fun _ => ⟨by simp [opcodeTable, commandRows, Instr.row], by simp only [Instr.row, tableWord, le32_mask8]; show le32 0x4 0 0 0 = 0x04; decide⟩

theorem setCallback (e : BitVec 8) (id : Nat) :
    Statement (.setCallback e id) := fun _ => ⟨by simp [opcodeTable, commandRows, Instr.row], by simp only [Instr.row, tableWord, le32_mask8]; show le32 0x5 0 0 0 = 0x05; decide⟩

theorem notify (state : BitVec 16) :
    Statement (.notify state) := fun _ => ⟨by simp [opcodeTable, commandRows, Instr.row], by simp only [Instr.row, tableWord, le32_mask8]; show le32 0x6 0 0 0 = 0x06; decide⟩

theorem sendData (buf : BitVec 32) (len : BitVec 16) :
    Statement (.sendData buf len) := fun _ => ⟨by simp [opcodeTable, commandRows, Instr.row], by simp only [Instr.row, tableWord, le32_mask8]; show le32 0x7 0 0 0 = 0x07; decide⟩

theorem receiveData (buf : BitVec 32) (maxLen : BitVec 16) :
    Statement (.receiveData buf maxLen) := fun _ => ⟨by simp [opcodeTable, commandRows, Instr.row], by simp only [Instr.row, tableWord, le32_mask8]; show le32 0x8 0 0 0 = 0x08; decide⟩

theorem isConfigured :
    Statement .isConfigured := fun _ => ⟨by simp [opcodeTable, commandRows, Instr.row], by simp only [Instr.row, tableWord, le32_mask8]; show le32 0x9 0 0 0 = 0x09; decide⟩

end Laws.RowMatch

end Sys2Proof
end

