-- ==== Sys2Proof/Laws/Run.lean ====
section
/-! SUPPORT. Which line a step takes (Machine/Run.lean), said in the terms of Safety.lean. -/

namespace Sys2Proof.Machine

/-- A blocking call waits (R244). -/
theorem clientWaits_iff {s : State} : clientWaits s = true ↔ Waits s := by simp [clientWaits, Waits]

/-- The lines that are held: the client's, clearStall apart, while a call waits (R244, R452, R497). -/
theorem lineHeld_iff {s : State} {l : Line} : lineHeld s l = true ↔ Held s l := by
  cases l with
  | client word =>
    simp only [lineHeld, Bool.and_eq_true, clientWaits_iff]
    refine and_congr_right fun _ => ⟨fun h => .inr ⟨word, rfl, fun e he => ?_⟩, ?_⟩
    · simp [he] at h
    · rintro (⟨_, _, h⟩ | ⟨w, h, hn⟩)
      · cases h
      · cases h
        split
        · next e he => exact absurd he (hn e)
        · rfl
  | memWrite a data => simp [lineHeld, clientWaits_iff, Held]
  | init | hReset | hSetup | hOut | hIn | hSof | hIdle | hResume | hError | dispatch | backend =>
    simp [lineHeld, Held]

/-- The first line that is not held is taken, and the others keep their order (R135). -/
theorem takeLine_held {s : State} {held rest : List Line} {l : Line} (hh : ∀ x ∈ held, Held s x)
    (hl : ¬ Held s l) : takeLine s (held ++ l :: rest) = some (l, held ++ rest) := by
  induction held with
  | nil =>
    rw [← lineHeld_iff, Bool.not_eq_true] at hl
    simp [takeLine, hl]
  | cons x held ih =>
    have hx := lineHeld_iff.2 (hh x (List.mem_cons_self ..))
    have ih := ih fun y hy => hh y (List.mem_cons_of_mem x hy)
    simp [takeLine, hx, ih]

/-- With every line held none is taken. -/
theorem takeLine_none {s : State} {held : List Line} (hh : ∀ x ∈ held, Held s x) :
    takeLine s held = none := by
  induction held with
  | nil => rfl
  | cons x held ih =>
    have hx := lineHeld_iff.2 (hh x (List.mem_cons_self ..))
    have ih := ih fun y hy => hh y (List.mem_cons_of_mem x hy)
    simp [takeLine, hx, ih]

end Sys2Proof.Machine
end

