-- ==== Sys2Proof/Laws/Sie.lean ====
section
/-! SUPPORT. The SIE's filter and its overlong packet (Machine/Sie.lean) as the records of Safety.lean. -/

namespace Sys2Proof.Machine

/-- The endpoint a token reaches (R161(a)-(c)). -/
theorem tokenTo_some {s : State} {a : BitVec 7} {e : BitVec 4} {i : EpId} :
    tokenTo s a e = some i ↔
      a = s.dev.addr ∧ s.dev.epActive = true ∧ e.toNat = i.num ∧ i.num < s.cfg.numEp ∧
        (s.ep.get i).enabled = true := by
  unfold tokenTo
  by_cases h1 : a = s.dev.addr
  · rw [if_neg (not_not.2 h1)]
    by_cases h2 : s.dev.epActive = false
    · simp [h2]
    · rw [if_neg h2]
      simp only [Bool.not_eq_false] at h2
      cases hn : endpointOf s.cfg e.toNat with
      | none =>
        simp only [reduceCtorEq, false_iff]
        rintro ⟨-, -, h, hl, -⟩
        have := endpointOf_none.1 hn i h
        omega
      | some j =>
        simp only []
        obtain ⟨hj, hl⟩ := endpointOf_some.1 hn
        split
        · next he =>
          constructor
          · intro h; cases h; exact ⟨h1, h2, hj, hl, he⟩
          · rintro ⟨-, -, h, -⟩; rw [h] at hj; rw [EpId.num_inj hj]
        · next he =>
          simp only [reduceCtorEq, false_iff]
          rintro ⟨-, -, h, -, h4⟩; rw [h] at hj; rw [EpId.num_inj hj] at h4; exact he h4
  · rw [if_pos h1]; simp [h1]

/-- EP0 has both directions, another endpoint its own (R31). -/
theorem hasDir_both {c : Params} {i : EpId} (d : Dir) : hasDir c i d = true ↔ i = .ep0 ∨ dirOf c i = d := by
  simp [hasDir]

/-- No SETUP is taken while the SIE is held off (R162). -/
theorem heldOff_iff (s : State) : (s.sie.tokenSuspended || queueFull s) = true ↔ HeldOff s := by
  simp [queueFull, HeldOff]

/-- When an OUT or IN is not served (R163, R164). -/
theorem mustNak_iff (s : State) (x : Slot) : mustNak s x = true ↔ HeldOff s ∨ x.own = false := by
  simp [mustNak, queueFull, HeldOff]
  tauto

/-- As many free bytes as asked for. -/
@[simp] theorem freeBytes_length (i n : Nat) : (freeBytes i n).length = n := by
  induction n generalizing i with
  | zero => rfl
  | succ n ih => simp [freeBytes, ih]

/-- An overlong packet where its slot's range can be written (R162, R163). -/
theorem overrun_ok {s : State} (hw : memWf s = true) {x : Slot}
    (h : Writable s.cfg x.addr.toNat x.bc.toNat) : ∃ t, overrun s x = .next t ∧ Overran s t x := by
  have hst := store_ok (s := s) (a := x.addr) (bs := freeBytes s.draws x.bc.toNat)
    (by rw [freeBytes_length]; exact h.1) (by rw [freeBytes_length]; exact h.2)
  unfold overrun
  rw [hst]
  refine ⟨_, rfl, freeErrBits s.draws, ?_, rfl, ?_⟩
  · unfold freeErrBits
    split <;> simp_all
  · intro y hy
    have := (store_next hst).2.2 hw |>.2 y
    rw [freeBytes_length, if_neg hy] at this
    exact this

end Sys2Proof.Machine
end

