-- ==== Sys2Proof/Tests/Slice0.lean ====
section
/-! SUPPORT. Tests: words of the spec's encodings, ill-formed terms, one step of each operation on the named
start states of 95_test_vectors.md, and witnesses for the hypotheses of the obligations. -/

namespace Sys2Proof.Tests

open Sys2Proof.Machine

set_option Elab.async false

/-! ## Decoding: a word of each row, from the spec's encoding -/

theorem test_decode_get_status_device :
    decode .setup [0x80, 0x00, 0x00, 0x00, 0x00, 0x00, 0x02, 0x00] = .ok (.getStatusDevice 0 0 2) := by decide
theorem test_decode_get_status_interface :
    decode .setup [0x81, 0x00, 0x00, 0x00, 0x01, 0x00, 0x02, 0x00] = .ok (.getStatusInterface 0 1 2) := by decide
theorem test_decode_get_status_endpoint :
    decode .setup [0x82, 0x00, 0x00, 0x00, 0x82, 0x00, 0x02, 0x00] = .ok (.getStatusEndpoint 0 0x82 2) := by decide
theorem test_decode_clear_feature_device :
    decode .setup [0x00, 0x01, 0x01, 0x00, 0x00, 0x00, 0x00, 0x00] = .ok (.clearFeatureDevice 1 0 0) := by decide
theorem test_decode_clear_feature_interface :
    decode .setup [0x01, 0x01, 0x00, 0x00, 0x02, 0x00, 0x00, 0x00] = .ok (.clearFeatureInterface 0 2 0) := by decide
theorem test_decode_clear_feature_endpoint :
    decode .setup [0x02, 0x01, 0x00, 0x00, 0x82, 0x00, 0x00, 0x00] = .ok (.clearFeatureEndpoint 0 0x82 0) := by decide
theorem test_decode_set_feature_device :
    decode .setup [0x00, 0x03, 0x02, 0x00, 0x00, 0x04, 0x00, 0x00] = .ok (.setFeatureDevice 2 0x400 0) := by decide
theorem test_decode_set_feature_interface :
    decode .setup [0x01, 0x03, 0x00, 0x00, 0x02, 0x00, 0x00, 0x00] = .ok (.setFeatureInterface 0 2 0) := by decide
theorem test_decode_set_feature_endpoint :
    decode .setup [0x02, 0x03, 0x00, 0x00, 0x04, 0x00, 0x00, 0x00] = .ok (.setFeatureEndpoint 0 4 0) := by decide
theorem test_decode_set_address :
    decode .setup [0x00, 0x05, 0x05, 0x00, 0x00, 0x00, 0x00, 0x00] = .ok (.setAddress 5 0 0) := by decide
theorem test_decode_get_descriptor_device :
    decode .setup [0x80, 0x06, 0x00, 0x01, 0x00, 0x00, 0x40, 0x00] = .ok (.getDescriptorDevice 0 0 64) := by decide
theorem test_decode_get_descriptor_configuration :
    decode .setup [0x80, 0x06, 0x00, 0x02, 0x00, 0x00, 0xFF, 0x00] = .ok (.getDescriptorConfiguration 0 0 255) := by
  decide
theorem test_decode_get_descriptor_string :
    decode .setup [0x80, 0x06, 0x03, 0x03, 0x09, 0x04, 0xFF, 0x00] = .ok (.getDescriptorString 3 0x409 255) := by
  decide
theorem test_decode_get_descriptor_other :
    decode .setup [0x80, 0x06, 0x00, 0x06, 0x00, 0x00, 0x0A, 0x00] = .ok (.getDescriptorOther 6 0 0 10) := by decide
theorem test_decode_set_descriptor :
    decode .setup [0x00, 0x07, 0x00, 0x01, 0x00, 0x00, 0x12, 0x00] = .ok (.setDescriptor 0x100 0 18) := by decide
theorem test_decode_get_configuration :
    decode .setup [0x80, 0x08, 0x00, 0x00, 0x00, 0x00, 0x01, 0x00] = .ok (.getConfiguration 0 0 1) := by decide
theorem test_decode_set_configuration :
    decode .setup [0x00, 0x09, 0x01, 0x00, 0x00, 0x00, 0x00, 0x00] = .ok (.setConfiguration 1 0 0) := by decide
theorem test_decode_get_interface :
    decode .setup [0x81, 0x0A, 0x00, 0x00, 0x02, 0x00, 0x01, 0x00] = .ok (.getInterface 0 2 1) := by decide
theorem test_decode_set_interface :
    decode .setup [0x01, 0x0B, 0x00, 0x00, 0x02, 0x00, 0x00, 0x00] = .ok (.setInterface 0 2 0) := by decide
theorem test_decode_synch_frame :
    decode .setup [0x82, 0x0C, 0x00, 0x00, 0x82, 0x00, 0x02, 0x00] = .ok (.synchFrame 0 0x82 2) := by decide
-- V-KEY-4: no row has bmRequestType 0x81 with bRequest 6.
theorem test_decode_std_unmatched :
    decode .setup [0x81, 0x06, 0x00, 0x22, 0x00, 0x00, 0x02, 0x00] =
      .ok (.stdUnmatched 0x81 0x06 0x2200 0 2) := by decide
theorem test_decode_cdc_set_line_coding :
    decode .setup [0x21, 0x20, 0x00, 0x00, 0x01, 0x00, 0x07, 0x00] = .ok (.cdcSetLineCoding 0 1 7) := by decide
theorem test_decode_cdc_get_line_coding :
    decode .setup [0xA1, 0x21, 0x00, 0x00, 0x01, 0x00, 0x07, 0x00] = .ok (.cdcGetLineCoding 0 1 7) := by decide
theorem test_decode_cdc_set_control_line_state :
    decode .setup [0x21, 0x22, 0x03, 0x00, 0x01, 0x00, 0x00, 0x00] = .ok (.cdcSetControlLineState 3 1 0) := by decide
theorem test_decode_cdc_send_break :
    decode .setup [0x21, 0x23, 0xFF, 0xFF, 0x01, 0x00, 0x00, 0x00] = .ok (.cdcSendBreak 0xFFFF 1 0) := by decide
-- V-KEY-8: the direction of SET_LINE_CODING is wrong.
theorem test_decode_class_unmatched :
    decode .setup [0xA1, 0x20, 0x00, 0x00, 0x01, 0x00, 0x07, 0x00] =
      .ok (.classUnmatched 0xA1 0x20 0 1 7) := by decide
theorem test_decode_vendor_request :
    decode .setup [0xC0, 0x01, 0x00, 0x00, 0x00, 0x00, 0x04, 0x00] = .ok (.vendorRequest 0xC0 1 0 0 4) := by decide
theorem test_decode_reserved_type :
    decode .setup [0xE0, 0x00, 0x00, 0x00, 0x00, 0x00, 0x00, 0x00] = .ok (.reservedType 0xE0 0 0 0 0) := by decide
-- Completion words `pid << 8 | ep << 4 | dir << 3 | odd << 2`, low byte first (R127).
theorem test_decode_tok_setup_ep0 : decode .completion [0x04, 0x0D] = .ok (.tokSetupEp0 true) := by decide
theorem test_decode_tok_out_ep0 : decode .completion [0x00, 0x01] = .ok (.tokOutEp0 false) := by decide
theorem test_decode_tok_in_ep0 : decode .completion [0x0C, 0x09] = .ok (.tokInEp0 true) := by decide
theorem test_decode_tok_out_epn : decode .completion [0x10, 0x01] = .ok (.tokOutEpn 1 false) := by decide
theorem test_decode_tok_in_epn : decode .completion [0x2C, 0x09] = .ok (.tokInEpn 2 true) := by decide
theorem test_decode_tok_setup_epn : decode .completion [0x34, 0x0D] = .ok (.tokSetupEpn 3 true) := by decide
-- A PID of the other direction is no row (R130(g)).
theorem test_decode_completion_none : decode .completion [0x08, 0x01] = .error .completionWord := by decide
theorem test_decode_ev_usbrst : decode .event [0x01, 0x00] = .ok .evUsbrst := by decide
theorem test_decode_ev_error : decode .event [0x02, 0x00] = .ok .evError := by decide
theorem test_decode_ev_softok : decode .event [0x04, 0x00] = .ok .evSoftok := by decide
theorem test_decode_ev_tokdne : decode .event [0x08, 0x00] = .ok .evTokdne := by decide
theorem test_decode_ev_sleep : decode .event [0x10, 0x00] = .ok .evSleep := by decide
theorem test_decode_ev_resume : decode .event [0x20, 0x01] = .ok (.evResume false) := by decide
theorem test_decode_ev_stall : decode .event [0x80, 0x00] = .ok .evStall := by decide
-- ATTACH has no row (R129), and the priority is USBRST first, ERROR last (R371).
theorem test_decode_ev_attach : decode .event [0x40, 0x00] = .error .eventWord := by decide
theorem test_decode_ev_priority : decode .event [0xBE, 0x00] = .ok .evTokdne := by decide
-- R233's example startTx(2, 100, 0x20000100) and R234's startRx(1, 128, 0x20000200).
theorem test_decode_start_tx :
    decode .cmd [0x01, 0x02, 0x64, 0x00, 0x00, 0x01, 0x00, 0x20] = .ok (.startTx 2 100 0x20000100) := by decide
theorem test_decode_start_rx :
    decode .cmd [0x02, 0x01, 0x80, 0x00, 0x00, 0x02, 0x00, 0x20] = .ok (.startRx 1 128 0x20000200) := by decide
theorem test_decode_stall : decode .cmd [0x03, 0x02] = .ok (.stall 2) := by decide
theorem test_decode_clear_stall : decode .cmd [0x04, 0x02] = .ok (.clearStall 2) := by decide
theorem test_decode_set_callback : decode .cmd [0x05, 0x02, 0x07, 0x01, 0x00, 0x00] = .ok (.setCallback 2 263) := by
  decide
theorem test_decode_notify : decode .cmd [0x06, 0x03, 0x01] = .ok (.notify 0x103) := by decide
theorem test_decode_send_data :
    decode .cmd [0x07, 0x00, 0x01, 0x00, 0x20, 0x40, 0x00] = .ok (.sendData 0x20000100 64) := by decide
theorem test_decode_receive_data :
    decode .cmd [0x08, 0x00, 0x02, 0x00, 0x20, 0x40, 0x00] = .ok (.receiveData 0x20000200 64) := by decide
theorem test_decode_is_configured : decode .cmd [0x09] = .ok .isConfigured := by decide
-- No code 0x0A, no short operand list, no 7-byte packet.
theorem test_decode_rejects :
    decode .cmd [0x0A] = .error .commandWord ∧ decode .cmd [0x03] = .error .commandWord ∧
    decode .setup [0x80, 0x00, 0x00, 0x00, 0x00, 0x00, 0x02] = .error .setupLength ∧
    decode .completion [0x00, 0x11] = .error .completionWord := by decide

/-! ## Well-formedness: an ill-formed term for each check -/

theorem test_wf_descriptor_other :
    (Instr.getDescriptorOther 1 0 0 0).wf = false ∧ (Instr.getDescriptorOther 2 0 0 0).wf = false ∧
    (Instr.getDescriptorOther 3 0 0 0).wf = false ∧ (Instr.getDescriptorOther 4 0 0 0).wf = true := by decide
theorem test_wf_fallbacks :
    (Instr.stdUnmatched 0x21 2 0 0 0).wf = false ∧ (Instr.stdUnmatched 0x80 6 0 0 0).wf = false ∧
    (Instr.classUnmatched 0x01 2 0 0 0).wf = false ∧ (Instr.classUnmatched 0x21 0x20 0 0 0).wf = false ∧
    (Instr.vendorRequest 0x60 0 0 0 0).wf = false ∧ (Instr.reservedType 0x40 0 0 0 0).wf = false := by decide
theorem test_wf_completions :
    (Instr.tokOutEpn 0 true).wf = false ∧ (Instr.tokInEpn 0 true).wf = false ∧
    (Instr.tokSetupEpn 0 true).wf = false := by decide
theorem test_wf_callback_id : (Instr.setCallback 1 (2 ^ 32)).wf = false ∧ (Instr.setCallback 1 7).wf = true := by decide

/-! ## Start states (95_test_vectors.md section 1) and what a test looks at -/

/-- The state an outcome goes on in; a stop gives the reset state. -/
def after : Res → State
  | .next t => t
  | .fault _ => State.reset
  | .refused _ => State.reset

/-- Whether an outcome goes on in a state with a property. -/
def goes (r : Res) (p : State → Bool) : Bool :=
  match r with
  | .next t => p t
  | .fault _ => false
  | .refused _ => false

/-- Whether an outcome is a refusal. -/
def refuses (r : Res) (x : Refusal) : Bool :=
  match r with
  | .next _ => false
  | .fault _ => false
  | .refused y => y == x

/-- S_DEF: after the first bus reset. -/
def sDef : State := after (exec .evUsbrst State.reset)
/-- As S_ADR: Addressed at address 5. -/
def sAdr : State := setDev sDef { sDef.dev with conn := .addressed, addr := 5 }
/-- As S_CFG: Configured, EP0 Idle. -/
def sCfg : State := configure sAdr 1
/-- S_CFG with EP2 halted. -/
def sHalt : State := stallEp sCfg .ep2
/-- S_CFG suspended. -/
def sSusp : State := after (exec .evSleep sCfg)

/-- The dispatch of a SETUP completion that holds a packet. -/
def setup (s : State) (packet : List Byte) : Res := runDispatch true (placeSetup s packet)

/-- The TX slot EP0 has armed. -/
def txSlot (s : State) : Slot := slot s .ep0 .tx s.ep.ep0.odd.tx

/-- EP0 sends these bytes as one last DATA1 packet. -/
def replies (b : List Byte) (t : State) : Bool :=
  t.ep.ep0.phase == .lastIn && (txSlot t).own && (txSlot t).data01 &&
    peeks t (txSlot t).addr.toNat (txSlot t).bc.toNat == b

/-- A status ZLP DATA1 is armed. -/
def acks (t : State) : Bool :=
  t.ep.ep0.phase == .statusIn && (txSlot t).own && (txSlot t).data01 && (txSlot t).bc == 0

/-- Stall of a cause, with the device registers of `s`. -/
def stalls (s : State) (c : StallCause) (t : State) : Bool :=
  t.ep.ep0.phase == .stall && t.out.getLast? == some (.log (.requestError c)) && t.dev.conn == s.dev.conn &&
    t.dev.config == s.dev.config && t.dev.pendingAddr == s.dev.pendingAddr && !t.sie.tokenSuspended

/-- A fault of a reason. -/
def faults (r : FaultReason) (t : State) : Bool :=
  hasReason t.fault r && t.out.getLast? == some (.log (.fault r))

/-! ## Requests (V-STD, V-CDC) -/

-- V-STD-1, V-STD-4.
theorem test_get_status_device :
    goes (setup sCfg [0x80, 0, 0, 0, 0, 0, 2, 0]) (replies [0, 0]) = true := by decide +kernel
theorem test_get_status_device_length :
    goes (setup sCfg [0x80, 0, 0, 0, 0, 0, 4, 0]) (stalls sCfg .s4) = true := by decide +kernel
-- V-STD-5, V-STD-7.
theorem test_get_status_interface :
    goes (setup sCfg [0x81, 0, 0, 0, 1, 0, 2, 0]) (replies [0, 0]) = true := by decide +kernel
theorem test_get_status_interface_state_first :
    goes (setup sAdr [0x81, 0, 0, 0, 9, 0, 2, 0]) (stalls sAdr .s3) = true := by decide +kernel
-- V-STD-8, V-STD-49.
theorem test_get_status_endpoint :
    goes (setup sHalt [0x82, 0, 0, 0, 0x82, 0, 2, 0]) (replies [1, 0]) = true := by decide +kernel
theorem test_get_status_endpoint_direction :
    goes (setup sCfg [0x82, 0, 0, 0, 2, 0, 2, 0]) (stalls sCfg .s6) = true := by decide +kernel
-- V-STD-55 after V-STD-9.
theorem test_clear_feature_device :
    goes (setup (setDev sCfg { sCfg.dev with remoteWakeup := true }) [0, 1, 1, 0, 0, 0, 0, 0])
      (fun t => acks t && !t.dev.remoteWakeup) = true := by decide +kernel
-- V-STD-48.
theorem test_clear_feature_interface :
    goes (setup sCfg [1, 1, 0, 0, 0, 0, 0, 0]) (stalls sCfg .s10) = true := by decide +kernel
-- V-STD-12, V-STD-13.
theorem test_clear_feature_endpoint :
    goes (setup sHalt [2, 1, 0, 0, 0x82, 0, 0, 0]) (fun t => acks t && t.ep.ep2.phase == .idle &&
      !t.bdt.ep2.tx.even.stall && !t.bdt.ep2.tx.odd.stall && !t.ep.ep2.toggle.tx) = true := by decide +kernel
theorem test_clear_feature_endpoint_value :
    goes (setup sCfg [2, 1, 1, 0, 0x82, 0, 0, 0]) (stalls sCfg .s5) = true := by decide +kernel
-- V-STD-9, V-STD-10.
theorem test_set_feature_device :
    goes (setup sCfg [0, 3, 1, 0, 0, 0, 0, 0]) (fun t => acks t && t.dev.remoteWakeup) = true := by decide +kernel
theorem test_set_feature_device_test_mode :
    goes (setup sCfg [0, 3, 2, 0, 0, 4, 0, 0]) (stalls sCfg .s10) = true := by decide +kernel
-- R319: S10 for every feature.
theorem test_set_feature_interface :
    goes (setup sCfg [1, 3, 7, 0, 2, 0, 0, 0]) (stalls sCfg .s10) = true := by decide +kernel
-- R320's example, V-STD-54.
theorem test_set_feature_endpoint :
    goes (setup sCfg [2, 3, 0, 0, 0x82, 0, 0, 0]) (fun t => acks t && t.ep.ep2.phase == .stall &&
      t.bdt.ep2.tx.even.stall && t.bdt.ep2.tx.odd.stall && !t.bdt.ep2.tx.even.own) = true := by decide +kernel
theorem test_set_feature_endpoint_ep0 :
    goes (setup sCfg [2, 3, 0, 0, 0x80, 0, 0, 0]) (fun t => acks t && !t.bdt.ep0.tx.odd.stall) = true := by
  decide +kernel
-- V-STD-14 (the SETUP step), V-STD-15.
theorem test_set_address :
    goes (setup sDef [0, 5, 5, 0, 0, 0, 0, 0]) (fun t => acks t && t.dev.pendingAddr == 5 && t.dev.addr == 0 &&
      t.dev.conn == .default && t.ep.ep0.callback == some .commitAddress) = true := by decide +kernel
theorem test_set_address_value :
    goes (setup sDef [0, 5, 0x80, 0, 0, 0, 0, 0]) (stalls sDef .s5) = true := by decide +kernel
-- V-STD-21, V-STD-23.
theorem test_get_descriptor_device :
    goes (setup sDef [0x80, 6, 0, 1, 0, 0, 8, 0]) (replies [0x12, 1, 0, 2, 0xEF, 2, 1, 0x40]) = true := by
  decide +kernel
theorem test_get_descriptor_device_index :
    goes (setup sDef [0x80, 6, 1, 1, 0, 0, 0x12, 0]) (stalls sDef .s5) = true := by decide +kernel
-- V-STD-24, V-STD-25 (its first packet).
theorem test_get_descriptor_configuration :
    goes (setup sAdr [0x80, 6, 0, 2, 0, 0, 9, 0]) (replies [9, 2, 0x62, 0, 3, 1, 0, 0xA0, 0x32]) = true := by
  decide +kernel
theorem test_get_descriptor_configuration_long :
    goes (setup sAdr [0x80, 6, 0, 2, 0, 0, 0xFF, 0]) (fun t => t.ep.ep0.phase == .dataIn &&
      (txSlot t).bc == 64 && t.ep.ep0.remaining == 98) = true := by decide +kernel
-- V-STD-29, V-STD-30.
theorem test_get_descriptor_string :
    goes (setup sDef [0x80, 6, 1, 3, 9, 4, 0xFF, 0])
      (replies [0x0A, 3, 0x41, 0, 0x63, 0, 0x6D, 0, 0x65, 0]) = true := by decide +kernel
theorem test_get_descriptor_string_index :
    goes (setup sDef [0x80, 6, 5, 3, 9, 4, 0xFF, 0]) (stalls sDef .s5) = true := by decide +kernel
-- V-STD-31.
theorem test_get_descriptor_other :
    goes (setup sDef [0x80, 6, 0, 6, 0, 0, 0x0A, 0]) (stalls sDef .s5) = true := by decide +kernel
-- V-STD-40, V-STD-41, V-STD-42.
theorem test_set_descriptor :
    goes (setup sCfg [0, 7, 0, 1, 0, 0, 0x12, 0]) (stalls sCfg .s2) = true := by decide +kernel
theorem test_synch_frame :
    goes (setup sCfg [0x82, 0x0C, 0, 0, 0x82, 0, 2, 0]) (stalls sCfg .s2) = true := by decide +kernel
theorem test_std_unmatched :
    goes (setup sCfg [0x80, 2, 0, 0, 0, 0, 2, 0]) (stalls sCfg .s2) = true := by decide +kernel
-- V-STD-38 in both states.
theorem test_get_configuration :
    goes (setup sCfg [0x80, 8, 0, 0, 0, 0, 1, 0]) (replies [1]) = true := by decide +kernel
theorem test_get_configuration_addressed :
    goes (setup sAdr [0x80, 8, 0, 0, 0, 0, 1, 0]) (replies [0]) = true := by decide +kernel
-- V-STD-32, V-STD-33.
theorem test_set_configuration :
    goes (setup sAdr [0, 9, 1, 0, 0, 0, 0, 0]) (fun t => acks t && t.dev.conn == .configured && t.dev.config == 1 &&
      (nonControl t.cfg).all fun e => (t.ep.get e).enabled && (t.ep.get e).phase == .idle) = true := by decide +kernel
theorem test_set_configuration_zero :
    goes (setup sHalt [0, 9, 0, 0, 0, 0, 0, 0]) (fun t => acks t && t.dev.conn == .addressed && t.dev.config == 0 &&
      !t.ep.ep2.enabled && t.ep.ep2.phase == .idle && !t.bdt.ep2.tx.odd.stall) = true := by decide +kernel
-- V-STD-44, V-STD-45.
theorem test_get_interface :
    goes (setup sCfg [0x81, 0x0A, 0, 0, 0, 0, 1, 0]) (replies [0]) = true := by decide +kernel
theorem test_get_interface_target :
    goes (setup sCfg [0x81, 0x0A, 0, 0, 3, 0, 1, 0]) (stalls sCfg .s6) = true := by decide +kernel
-- V-STD-46, V-STD-47.
theorem test_set_interface : goes (setup sCfg [1, 0x0B, 0, 0, 2, 0, 0, 0]) acks = true := by decide +kernel
theorem test_set_interface_value :
    goes (setup sCfg [1, 0x0B, 1, 0, 2, 0, 0, 0]) (stalls sCfg .s5) = true := by decide +kernel
-- V-CDC-1, V-CDC-6.
theorem test_cdc_set_line_coding :
    goes (setup sCfg [0x21, 0x20, 0, 0, 1, 0, 7, 0]) (fun t => t.ep.ep0.phase == .dataOut &&
      t.ep.ep0.ptr == 0x20004140 && t.ep.ep0.remaining == 7 && t.ep.ep0.callback == some .applyLineCoding &&
      t.out == sCfg.out) = true := by decide +kernel
theorem test_cdc_set_line_coding_target :
    goes (setup sCfg [0x21, 0x20, 0, 0, 0, 0, 7, 0]) (stalls sCfg .s6) = true := by decide +kernel
-- V-CDC-9.
theorem test_cdc_get_line_coding :
    goes (setup sCfg [0xA1, 0x21, 0, 0, 1, 0, 4, 0]) (fun t => replies [0x80, 0x25, 0, 0] t &&
      t.out.getLast? == some .backendGetLineCoding) = true := by decide +kernel
-- V-CDC-11, V-CDC-13.
theorem test_cdc_set_control_line_state :
    goes (setup sCfg [0x21, 0x22, 0xFF, 0xFF, 1, 0, 0, 0]) (fun t => acks t &&
      t.out.getLast? == some (.backendSetControlLineState 3)) = true := by decide +kernel
theorem test_cdc_send_break :
    goes (setup sCfg [0x21, 0x23, 0xFF, 0xFF, 1, 0, 0, 0]) (fun t => acks t &&
      t.out.getLast? == some (.backendSendBreak 0xFFFF)) = true := by decide +kernel
-- V-CDC-14, V-CDC-16, V-CDC-17.
theorem test_class_unmatched :
    goes (setup sCfg [0x21, 0xFF, 0, 0, 1, 0, 0, 0]) (stalls sCfg .s7) = true := by decide +kernel
theorem test_vendor_request :
    goes (setup sCfg [0xC0, 1, 0, 0, 0, 0, 4, 0]) (stalls sCfg .s7) = true := by decide +kernel
theorem test_reserved_type :
    goes (setup sCfg [0xE0, 0, 0, 0, 0, 0, 0, 0]) (stalls sCfg .s7) = true := by decide +kernel

/-! ## Completions -/

/-- The state after the SIE took a SETUP with this packet and it was dispatched. -/
def afterSetup (s : State) (packet : List Byte) : State :=
  after (runDispatch true (after (runLine (.hSetup s.dev.addr 0 packet) s)))

-- V-SIE-9: 9 bytes stall with S1; V-STD-20: a SETUP in Stall is served.
theorem test_tok_setup_length :
    goes (runDispatch true (after (runLine (.hSetup 0 0 [0x80, 6, 0, 1, 0, 0, 8, 0, 1]) sDef)))
      (stalls sDef .s1) = true := by decide +kernel
theorem test_tok_setup_ends_stall :
    goes (setup (afterSetup sDef [0x80, 2, 0, 0, 0, 0, 2, 0]) [0x80, 6, 0, 1, 0, 0, 8, 0])
      (replies [0x12, 1, 0, 2, 0xEF, 2, 1, 0x40]) = true := by decide +kernel
-- V-CDC-2 (the dispatch), V-CDC-4.
theorem test_tok_out_ep0 :
    goes (runDispatch true (after (runLine (.hOut 5 0 true [0, 0xC2, 1, 0, 0, 0, 8])
      (afterSetup sCfg [0x21, 0x20, 0, 0, 1, 0, 7, 0])))) (fun t => acks t &&
        peeks t 0x20004140 7 == [0, 0xC2, 1, 0, 0, 0, 8] && t.backend.lc == ⟨115200, 0, 0, 8⟩ &&
        t.out.getLast? == some (.backendSetLineCoding ⟨115200, 0, 0, 8⟩)) = true := by decide +kernel
theorem test_tok_out_ep0_overflow :
    goes (runDispatch true (after (runLine (.hOut 5 0 true [0, 0xC2, 1, 0, 0, 0, 8, 9])
      (afterSetup sCfg [0x21, 0x20, 0, 0, 1, 0, 7, 0])))) (fun t => stalls sCfg .s9 t &&
        t.backend.lc == ⟨9600, 0, 0, 8⟩) = true := by decide +kernel
-- V-STD-14 (the commit), V-STD-26 (the ZLP owed).
theorem test_tok_in_ep0_commit :
    goes (runDispatch true (after (runLine (.hIn 0 0 true) (afterSetup sDef [0, 5, 5, 0, 0, 0, 0, 0]))))
      (fun t => t.dev.addr == 5 && t.dev.conn == .addressed && t.ep.ep0.phase == .idle) = true := by decide +kernel
theorem test_tok_in_ep0_zlp :
    goes (runDispatch true (after (runLine (.hIn 5 0 true) (afterSetup sAdr [0x80, 6, 0, 2, 0, 0, 0x40, 0]))))
      (fun t => t.ep.ep0.phase == .lastIn && (txSlot t).own && (txSlot t).bc == 0 && !(txSlot t).data01) = true := by
  decide +kernel
-- V-ENG-11 (the second packet, short), with remaining 64 left.
theorem test_tok_out_epn :
    goes (runDispatch true (after (runLine (.hOut 5 1 false (List.replicate 10 0xAA))
      (after (exec (.startRx 1 64 0x20000200) sCfg))))) (fun t => t.ep.ep1.phase == .idle &&
        t.ep.ep1.remaining == 54 && t.ep.ep1.xferred == 10 && t.ep.ep1.toggle.rx && t.ep.ep1.odd.rx) = true := by
  decide +kernel
-- V-ENG-17, V-ENG-1 (its first packet).
theorem test_tok_in_epn_callback :
    goes (runDispatch true (after (runLine (.hIn 5 2 true) (after (exec (.startTx 2 10 0x20000100)
      (after (exec (.setCallback 2 7) sCfg))))))) (fun t => t.ep.ep2.phase == .idle &&
        t.out.getLast? == some (.completed .ep2 7 10)) = true := by decide +kernel
theorem test_tok_in_epn_next :
    goes (runDispatch true (after (runLine (.hIn 5 2 true) (after (exec (.startTx 2 128 0x20000100) sCfg)))))
      (fun t => t.ep.ep2.phase == .dataIn && (slot t .ep2 .tx true).own && (slot t .ep2 .tx true).data01 &&
        (slot t .ep2 .tx true).addr == 0x20000140) = true := by decide +kernel
-- V-CW-6.
theorem test_tok_setup_epn : goes (exec (.tokSetupEpn 1 false) sCfg) (faults .f4) = true := by decide +kernel

/-! ## Events (V-EVT) -/

-- V-EVT-1, V-EVT-3, V-EVT-5, V-EVT-4.
theorem test_ev_usbrst :
    goes (exec .evUsbrst sHalt) (fun t => t.dev.conn == .default && t.dev.addr == 0 && !t.ep.ep2.enabled &&
      (slot t .ep0 .rx false).own && (slot t .ep0 .rx false).bc == 64 && t.dev.inten == 0x9F) = true := by
  decide +kernel
theorem test_ev_sleep :
    goes (exec .evSleep sCfg) (fun t => t.dev.conn == .suspended && !t.dev.epActive && t.dev.inten == 0xBF) = true := by
  decide +kernel
theorem test_ev_resume :
    goes (exec (.evResume true) sSusp) (fun t => t.dev.conn == .configured && t.dev.epActive &&
      t.dev.inten == 0x9F) = true := by decide +kernel
theorem test_ev_resume_spurious :
    goes (exec (.evResume false) sSusp) (fun t => t.dev.conn == .suspended && t.dev.inten == 0xBF &&
      t.out.getLast? == some (.log .spuriousResume)) = true := by decide +kernel
-- V-EVT-9: the frame number has 11 bits.
theorem test_ev_softok :
    goes (runDispatch true (after (runLine (.hSof 0x800) sCfg))) (fun t => t.dev.istat == 0 &&
      t.out.getLast? == some (.sof 0)) = true := by decide +kernel
-- R378 after H.ERROR 0x12.
theorem test_ev_error :
    goes (runDispatch true (after (runLine (.hError 0x12) sCfg))) (fun t => t.dev.errstat == 0 &&
      t.dev.istat == 0 && t.out.getLast? == some (.log (.busError 0x12))) = true := by decide +kernel
-- R375 after the STALL answer of V-ENG-19.
theorem test_ev_stall :
    goes (runDispatch true (after (runLine (.hIn 5 2 true) sHalt))) (fun t => t.dev.istat == 0 &&
      t.sie.answer == .stall && t.ep.ep2.phase == .stall) = true := by decide +kernel
-- V-EVT-2: the reset is serviced before the queued SETUP.
theorem test_ev_tokdne_after_reset :
    goes (runDispatch true (after (runLine .hReset (after (runLine (.hSetup 5 0 [0x80, 8, 0, 0, 0, 0, 1, 0]) sCfg)))))
      (fun t => t.dev.conn == .default && t.sie.tokq == [] && !t.sie.tokenSuspended) = true := by decide +kernel

/-! ## Client commands (V-ENG, V-CDC) -/

-- R233's example, V-ENG-9.
theorem test_start_tx :
    goes (exec (.startTx 2 100 0x20000100) sCfg) (fun t => t.ep.ep2.phase == .dataIn && t.ep.ep2.remaining == 100 &&
      slot t .ep2 .tx false == ⟨true, false, false, 64, 0x20000100, 0⟩) = true := by decide +kernel
theorem test_start_tx_busy :
    goes (exec (.startTx 2 100 0) (after (exec (.startTx 2 100 0x20000100) sCfg))) (faults .f1) = true := by
  decide +kernel
-- R234's example, V-ENG-16.
theorem test_start_rx :
    goes (exec (.startRx 1 128 0x20000200) sCfg) (fun t => t.ep.ep1.phase == .dataOut &&
      slot t .ep1 .rx false == ⟨true, false, false, 64, 0x20000200, 0⟩) = true := by decide +kernel
theorem test_start_rx_direction :
    goes (exec (.startRx 2 10 0x20000200) sCfg) (faults .f5) = true := by decide +kernel
-- V-ENG-19, V-ENG-20.
theorem test_stall :
    goes (exec (.stall 2) (after (exec (.startTx 2 100 0x20000100) sCfg))) (fun t => t.ep.ep2.phase == .stall &&
      slot t .ep2 .tx false == ⟨false, false, true, 64, 0x20000100, 0⟩ && t.ep.ep2.callback == none) = true := by
  decide +kernel
theorem test_stall_ep0 : goes (exec (.stall 0) sCfg) (faults .f2) = true := by decide +kernel
-- V-ENG-21.
theorem test_clear_stall :
    goes (exec (.clearStall 3) (setEp sCfg .ep3 { sCfg.ep.ep3 with toggle := ⟨true, true⟩ })) (fun t =>
      t.ep.ep3.phase == .idle && !t.ep.ep3.toggle.tx && t.ep.ep3.toggle.rx) = true := by decide +kernel
-- R240, V-ENG-18.
theorem test_set_callback :
    goes (exec (.setCallback 2 7) sCfg) (fun t => t.ep.ep2.callback == some (.client 7)) = true := by decide +kernel
theorem test_set_callback_ep0 : goes (exec (.setCallback 0 1) sCfg) (faults .f2) = true := by decide +kernel
-- V-CDC-18, V-CDC-19.
theorem test_notify :
    goes (runLine (.backend 3) sCfg) (fun t => t.backend.lineState == 3 && t.ep.ep3.phase == .lastIn &&
      peeks t 0x20004480 10 == [0xA1, 0x20, 0, 0, 1, 0, 2, 0, 3, 0] && (slot t .ep3 .tx false).bc == 10) = true := by
  decide +kernel
theorem test_notify_lost :
    goes (runLine (.backend 1) (after (runLine (.backend 3) sCfg))) (fun t => faults .f1 t &&
      t.backend.lineState == 1) = true := by decide +kernel
-- V-ENG-24, and the wait of R244.
theorem test_send_data_fault :
    goes (exec (.sendData 0x20000100 10) sAdr) (fun t => faults .f2 t && !t.client.sendWait) = true := by decide +kernel
theorem test_send_data_waits :
    goes (step { sCfg with lines := [.client [7, 0, 1, 0, 0x20, 10, 0]] }) (fun t => t.client.sendWait &&
      t.ep.ep2.phase == .lastIn) = true := by decide +kernel
-- V-ENG-23: the return value.
theorem test_receive_data_returns :
    goes (step { after (runLine (.hOut 5 1 false [1, 2, 3, 4, 5]) (after (exec (.receiveData 0x20000200 64) sCfg)))
      with lines := [.dispatch true] }) (fun t => !t.client.recvWait && t.client.recvRet == 5) = true := by
  decide +kernel
-- V-ENG-25.
theorem test_is_configured :
    goes (exec .isConfigured sCfg) (fun t => t.client.confRet) = true ∧
    goes (exec .isConfigured sAdr) (fun t => !t.client.confRet) = true := by decide +kernel

/-! ## The SIE (V-SIE) -/

-- V-SIE-1, V-SIE-5, V-SIE-8.
theorem test_sie_setup_before_reset :
    goes (runLine (.hSetup 0 0 [0x80, 6, 0, 1, 0, 0, 0x40, 0]) State.reset) (fun t => t.sie.answer == .none) = true := by
  decide +kernel
theorem test_sie_setup_suspends :
    goes (runLine (.hSetup 5 0 [0x80, 0, 0, 0, 0, 0, 2, 0])
      (after (runLine (.hSetup 5 0 [0x80, 8, 0, 0, 0, 0, 1, 0]) sCfg))) (fun t => t.sie.answer == .none &&
        t.sie.tokq.length == 1) = true := by decide +kernel
-- V-ENG-12, V-ENG-22.
theorem test_sie_out_duplicate :
    goes (runLine (.hOut 5 1 true [1]) (after (exec (.startRx 1 128 0x20000200) sCfg))) (fun t =>
      t.sie.answer == .ack && t.sie.tokq == [] && (slot t .ep1 .rx false).own) = true := by decide +kernel
theorem test_sie_in_noack :
    goes (runLine (.hIn 5 2 false) (after (exec (.startTx 2 3 0x20000100) sCfg))) (fun t =>
      t.sie.answer == .data false [0, 0, 0] && t.sie.tokq == [] && (slot t .ep2 .tx false).own) = true := by
  decide +kernel

/-! ## A word of each row runs as the first step from reset (log 6) -/

/-- The whole bytes of the bits the opcode table gives a row. -/
def rowBits (r : OpRow) : Nat :=
  match r.format with
  | .setup => 32
  | .completion => 16
  | .event => 8
  | .cmd => 8

/-- A row's match word decodes and the next step runs it. -/
def rowRuns (r : OpRow) : Bool :=
  (decodeTableWord (rowBits r) r.pattern.toNat).isSome &&
    goes (step (State.reset.withFetchWord (rowBits r) r.pattern.toNat)) fun _ => true

theorem test_rows_run_setup : (standardRows ++ classRows).all rowRuns = true := by decide +kernel
theorem test_rows_run_others : (completionRows ++ eventRows ++ commandRows).all rowRuns = true := by decide +kernel

/-! ## Witnesses: for each obligation with hypotheses, states and operands that meet them, clause by clause -/

/-- A property of endpoint numbers checked on the sixteen of them. -/
theorem forall_ep {p : EpId → Prop} (h : ∀ e ∈ allEps, p e) (e : EpId) : p e :=
  h e (by cases e <;> decide)

/-- A slot property checked on the sixty-four of them. -/
theorem forall_slot {p : EpId → Dir → Bool → Prop}
    (h : ∀ e ∈ allEps, ∀ d ∈ [Dir.rx, Dir.tx], ∀ k ∈ [false, true], p e d k) (e : EpId) (d : Dir) (k : Bool) :
    p e d k :=
  h e (by cases e <;> decide) d (by cases d <;> decide) k (by cases k <;> decide)

/-- An outcome that goes on has a next state. -/
theorem goes_next {r : Res} {p : State → Bool} (h : goes r p = true) : ∃ t, r = .next t ∧ p t = true := by
  cases r with
  | next t => exact ⟨t, rfl, h⟩
  | fault f => cases h
  | refused f => cases h

/-- An outcome that goes on in a state is that state. -/
theorem goes_eq {r : Res} {t : State} (h : goes r (fun u => decide (u = t)) = true) : r = .next t := by
  obtain ⟨u, h, e⟩ := goes_next h
  rw [h, of_decide_eq_true e]

/-- A configuration that passes the build checks, and canonical memory. -/
abbrev Ok (s : State) : Prop := buildOk s.cfg = true ∧ memWf s = true

theorem start_states_ok : ∀ s ∈ [State.reset, sDef, sAdr, sCfg, sHalt, sSusp], Ok s := by decide +kernel

theorem witness_GetStatusDeviceReplies :
    (Ok State.reset ∧ ¬ DefAddrConf State.reset) ∧
    (Ok sCfg ∧ DefAddrConf sCfg ∧ (1 : BitVec 16) ≠ 2) ∧
    (Ok sDef ∧ DefAddrConf sDef ∧ (2 : BitVec 16) = 2) := by decide +kernel

theorem witness_InterfaceStatusAndSettingReplyZero :
    (Ok sAdr ∧ sAdr.dev.conn ≠ .configured) ∧
    (Ok sCfg ∧ sCfg.dev.conn = .configured ∧ (3 : BitVec 16).toNat ≠ 2 ∧ (2 : BitVec 16).toNat ≠ 1) ∧
    (Ok sCfg ∧ sCfg.dev.conn = .configured ∧ (2 : BitVec 16).toNat = 2 ∧
      sCfg.cfg.numIf ≤ (3 : BitVec 16).toNat % 256) ∧
    (Ok sCfg ∧ sCfg.dev.conn = .configured ∧ (1 : BitVec 16).toNat = 1 ∧
      (0xFF02 : BitVec 16).toNat % 256 < sCfg.cfg.numIf) := by
  decide +kernel

theorem witness_GetStatusEndpointRepliesHalt :
    (Ok sSusp ∧ ¬ DefAddrConf sSusp) ∧
    (Ok sCfg ∧ DefAddrConf sCfg ∧ (3 : BitVec 16) ≠ 2) ∧
    (Ok sCfg ∧ DefAddrConf sCfg ∧ (2 : BitVec 16) = 2 ∧ (∀ e, ¬ EpTarget sCfg 0x86 e) ∧
      (∀ e, ¬ EpTarget sCfg 0x02 e) ∧ (∀ e, ¬ EpTarget sCfg 0x92 e) ∧ ∀ e, ¬ EpTarget sAdr 0x82 e) ∧
    (Ok sHalt ∧ DefAddrConf sHalt ∧ EpTarget sHalt 0x82 .ep2 ∧ EpTarget sHalt 0x85 .ep5 ∧
      EpTarget sHalt 0x04 .ep4 ∧ EpTarget sHalt 0x80 .ep0 ∧ EpTarget sDef 0x00 .ep0) :=
  ⟨by decide +kernel, by decide +kernel,
    ⟨by decide +kernel, by decide +kernel, rfl, forall_ep (by decide +kernel), forall_ep (by decide +kernel),
      forall_ep (by decide +kernel), forall_ep (by decide +kernel)⟩, by decide +kernel⟩

theorem witness_DeviceFeatureSetsRemoteWakeup :
    ¬ DefAddrConf State.reset ∧ (DefAddrConf sCfg ∧ (1 : BitVec 16) ≠ 0) ∧
    (DefAddrConf sCfg ∧ sCfg.cfg.remoteWakeupCapable = true) ∧
    (let s := { sCfg with cfg := { sCfg.cfg with remoteWakeupCapable := false } };
      DefAddrConf s ∧ s.cfg.remoteWakeupCapable = false) ∧
    (DefAddrConf sDef ∧ (2 : BitVec 16) = 2) ∧
    (DefAddrConf sAdr ∧ (0 : BitVec 16) ≠ 1 ∧ (0 : BitVec 16) ≠ 2 ∧ (3 : BitVec 16) ≠ 1 ∧ (3 : BitVec 16) ≠ 2) := by
  decide +kernel

theorem witness_InterfaceFeatureStalls :
    sAdr.dev.conn ≠ .configured ∧ (sCfg.dev.conn = .configured ∧ (1 : BitVec 16) ≠ 0) ∧
    (sCfg.dev.conn = .configured ∧ sCfg.cfg.numIf ≤ (3 : BitVec 16).toNat % 256) ∧
    (sCfg.dev.conn = .configured ∧ (2 : BitVec 16).toNat % 256 < sCfg.cfg.numIf) := by decide +kernel

theorem witness_EndpointFeatureHaltsAndClears :
    ¬ DefAddrConf sSusp ∧ (DefAddrConf sCfg ∧ (1 : BitVec 16) ≠ 0) ∧
    (DefAddrConf sCfg ∧ ∀ e, ¬ EpTarget sCfg 0x81 e) ∧
    (DefAddrConf sCfg ∧ EpTarget sCfg 0x82 .ep2 ∧ (1 : BitVec 16) ≠ 0) ∧
    (DefAddrConf sDef ∧ EpTarget sDef 0x80 .ep0) ∧
    (EpId.ep2 ≠ .ep0 ∧ DefAddrConf sHalt ∧ EpTarget sHalt 0x82 .ep2 ∧ EpTarget sHalt 0x01 .ep1) :=
  ⟨by decide +kernel, by decide +kernel, ⟨by decide +kernel, forall_ep (by decide +kernel)⟩, by decide +kernel,
    by decide +kernel, by decide +kernel⟩

theorem witness_SetAddressPends :
    ¬ (sCfg.dev.conn = .default ∨ sCfg.dev.conn = .addressed) ∧ sDef.dev.conn = .default ∧
    sAdr.dev.conn = .addressed ∧ (1 : BitVec 16) ≠ 0 ∧ 127 < (128 : BitVec 16).toNat ∧
    (127 : BitVec 16).toNat ≤ 127 ∧ (0 : BitVec 16).toNat ≤ 127 := by decide +kernel

theorem witness_GetDescriptorSendsRom :
    (Ok State.reset ∧ ¬ DefAddrConf State.reset) ∧ (Ok sDef ∧ DefAddrConf sDef ∧ (1 : BitVec 8) ≠ 0) ∧
    (Ok sAdr ∧ DefAddrConf sAdr) := by decide +kernel

theorem witness_GetDescriptorStringEncodes :
    (Ok sSusp ∧ ¬ DefAddrConf sSusp) ∧ (Ok sDef ∧ DefAddrConf sDef ∧ nstr sDef.cfg ≤ (5 : BitVec 8).toNat) ∧
    (Ok sDef ∧ DefAddrConf sDef ∧ (0 : BitVec 8) = 0) ∧
    (Ok sCfg ∧ DefAddrConf sCfg ∧ (4 : BitVec 8) ≠ 0 ∧ (4 : BitVec 8).toNat < nstr sCfg.cfg) := by decide +kernel

/-- The example configuration with the product string "é€", UTF-8 of 2 and 3 bytes. -/
def cAccents : Params := { Params.example with product := [0xC3, 0xA9, 0xE2, 0x82, 0xAC] }

/-- The interface name of the example configuration. -/
def exampleIfName : List Byte := [0x56, 0x65, 0x6E, 0x64, 0x6F, 0x72, 0x20, 0x42, 0x75, 0x6C, 0x6B]

-- R206, R207: U+00E9 and U+20AC, low byte first.
theorem test_encode_string_utf8 : encodeString cAccents 2 = [6, 3, 0xE9, 0x00, 0xAC, 0x20] := by decide

theorem witness_SerialStringIsCut :
    buildOk Params.example = true ∧ 0 < min Params.example.serial.length ((Params.example.ep0Mps - 2) / 2) ∧
    (let c := Params.example;
      ([c.manufacturer, c.product, c.serial] ++ c.ifNames)[0]? = some c.manufacturer ∧
      ([c.manufacturer, c.product, c.serial] ++ c.ifNames)[3]? = some exampleIfName) ∧
    buildOk cAccents = true ∧ (0x31 : Byte) ∈ cAccents.serial := by
  decide +kernel

theorem witness_GetDescriptorOtherStalls : ¬ DefAddrConf State.reset ∧ DefAddrConf sDef := by decide +kernel

theorem witness_GetConfigurationReplies :
    (Ok sSusp ∧ ¬ DefAddrConf sSusp) ∧ (Ok sCfg ∧ DefAddrConf sCfg ∧ (2 : BitVec 16) ≠ 1) ∧
    (Ok sCfg ∧ DefAddrConf sCfg ∧ sCfg.dev.config = 1) ∧ (Ok sDef ∧ DefAddrConf sDef) := by decide +kernel

theorem witness_SetConfigurationRebuilds :
    ¬ (sDef.dev.conn = .addressed ∨ sDef.dev.conn = .configured) ∧
    (sAdr.dev.conn = .addressed ∧ (1 : BitVec 16) ≠ 0) ∧
    ((2 : BitVec 16) ≠ 0 ∧ (2 : BitVec 16) ≠ 1) ∧ sCfg.dev.conn = .configured := by decide +kernel

theorem witness_SetInterfaceAcknowledges :
    sAdr.dev.conn ≠ .configured ∧ (sCfg.dev.conn = .configured ∧ (1 : BitVec 16) ≠ 0) ∧
    sCfg.cfg.numIf ≤ (3 : BitVec 16).toNat % 256 ∧ (2 : BitVec 16).toNat % 256 < sCfg.cfg.numIf := by
  decide +kernel

/-- No class hook installed. -/
def sNoHook : State := { sCfg with hooks := { sCfg.hooks with setup := .absent } }

theorem witness_CdcChecksInOrder :
    sNoHook.hooks.setup = .absent ∧ (sAdr.hooks.setup = .cdc ∧ sAdr.dev.conn ≠ .configured) ∧
    (sCfg.hooks.setup = .cdc ∧ sCfg.dev.conn = .configured ∧
      (((0 : Fin 4) = 0 ∧ (6 : BitVec 16) ≠ 7) ∨ (2 ≤ (0 : Fin 4).val ∧ (6 : BitVec 16) ≠ 0)) ∧
      (((2 : Fin 4) = 0 ∧ (1 : BitVec 16) ≠ 7) ∨ (2 ≤ (2 : Fin 4).val ∧ (1 : BitVec 16) ≠ 0))) ∧
    (sCfg.hooks.setup = .cdc ∧ sCfg.dev.conn = .configured ∧
      ¬ (((1 : Fin 4) = 0 ∧ (9 : BitVec 16) ≠ 7) ∨ (2 ≤ (1 : Fin 4).val ∧ (9 : BitVec 16) ≠ 0)) ∧
      (2 : BitVec 16).toNat % 256 ≠ sCfg.cfg.ifCdcComm.toNat) := by decide +kernel

theorem witness_CdcSetLineCodingStartsData :
    sCfg.hooks.setup = .cdc ∧ sCfg.dev.conn = .configured ∧ 
    (0xFF01 : BitVec 16).toNat % 256 = sCfg.cfg.ifCdcComm.toNat := by decide +kernel

theorem witness_CdcGetLineCodingReplies :
    Ok sCfg ∧ sCfg.hooks.setup = .cdc ∧ sCfg.dev.conn = .configured ∧
    (1 : BitVec 16).toNat % 256 = sCfg.cfg.ifCdcComm.toNat := by
  decide +kernel

theorem witness_CdcLineStateAndBreakReachBackend :
    sHalt.hooks.setup = .cdc ∧ sHalt.dev.conn = .configured ∧
    (1 : BitVec 16).toNat % 256 = sHalt.cfg.ifCdcComm.toNat := by decide +kernel

theorem witness_UnhandledClassRequestsStall :
    sNoHook.hooks.setup = .absent ∧ sCfg.cfg.vendorHook = none := by decide +kernel

/-- A packet of a vendor request to interface 0. -/
def vendorPacket (bm q : Byte) (l : BitVec 16) : Setup := ⟨bm, q, 0, 0, l⟩

/-- The rows of a vendor hook: a reply from the staging buffer, an OUT stage of 128 bytes, no data, an OUT stage of no
bytes, a stall, the two contradictions, and a row for a device state with TOKDNE set. -/
def exampleHook : List HookRow :=
  [⟨vendorPacket 0xC0 1 4, none, ⟨[(0, 9), (3, 8), (0, 7)], [.sendBreak 1], .dataIn 0x20004140 200 none⟩⟩,
   ⟨vendorPacket 0x40 2 128, none, ⟨[], [], .dataOut 0x21000100 none⟩⟩,
   ⟨vendorPacket 0x40 3 0, none, ⟨[(6, 8)], [.sendBreak 1], .noData none⟩⟩,
   ⟨vendorPacket 0x40 4 0, none, ⟨[], [], .dataOut 0x21000100 none⟩⟩] ++
  [⟨vendorPacket 0x40 5 0, none, ⟨[], [], .stall .s5⟩⟩,
   ⟨vendorPacket 0xC0 6 4, none, ⟨[(0, 9)], [.sendBreak 1], .dataOut 0x21000100 none⟩⟩,
   ⟨vendorPacket 0x40 7 4, none, ⟨[(0, 9)], [.sendBreak 1], .dataIn 0x20004140 4 none⟩⟩,
   ⟨vendorPacket 0x40 8 0, some { sCfg.dev with istat := 0x08 }, ⟨[], [], .noData none⟩⟩]

/-- A vendor hook installed. -/
def sVendor : State := { sCfg with cfg := { sCfg.cfg with vendorHook := some exampleHook } }

/-- What the hook answers in the state `sVendor`. -/
def answerOf (bm q : Byte) (l : BitVec 16) : ReqOutcome :=
  (vendorReply exampleHook (vendorPacket bm q l) { sVendor.dev with
    istat := sVendor.dev.istat &&& 0xF7 ||| (if sVendor.sie.tokq = [] then 0 else 0x08) }).outcome

theorem witness_VendorHookOutcomeTakesEffect :
    Ok sVendor ∧ sVendor.hooks.setup = .cdc ∧ sVendor.cfg.vendorHook = some exampleHook ∧
    (answerOf 0xC0 1 4 = .dataIn 0x20004140 200 none ∧ (0xC0 : Byte).getLsbD 7 = true) ∧
    (answerOf 0x40 2 128 = .dataOut 0x21000100 none ∧ (0x40 : Byte).getLsbD 7 = false) ∧
    answerOf 0x40 3 0 = .noData none ∧ answerOf 0x40 4 0 = .dataOut 0x21000100 none ∧
    answerOf 0x40 5 0 = .stall .s5 ∧ answerOf 0xC0 6 4 = .dataOut 0x21000100 none ∧
    answerOf 0x40 7 4 = .dataIn 0x20004140 4 none ∧ answerOf 0x40 8 0 = .stall .s7 := by decide +kernel

-- R410: the last write to a staging byte counts, the reply is cut to wLength. R132: the OUT length is wLength. R289,
-- R501: a contradicting answer stalls and leaves everything else alone. R166: the hook sees TOKDNE.
theorem test_vendor_request_hook :
    goes (setup sVendor [0xC0, 1, 0, 0, 0, 0, 4, 0]) (fun t => replies [7, 0, 0, 8] t &&
      t.out.getLast? == some (.backendSendBreak 1)) = true ∧
    goes (setup sVendor [0x40, 2, 0, 0, 0, 0, 128, 0]) (fun t => t.ep.ep0.phase == .dataOut &&
      t.ep.ep0.remaining == 128 && t.ep.ep0.ptr == 0x21000100) = true ∧
    goes (setup sVendor [0xC0, 6, 0, 0, 0, 0, 4, 0]) (fun t => stalls sVendor .s7 t &&
      t.out == sVendor.out ++ [.log (.requestError .s7)] && peek t 0x20004140 == 0) = true ∧
    goes (exec (.vendorRequest 0x40 8 0 0 0) (setSie sVendor { sVendor.sie with tokq := [⟨1, .rx, false⟩] }))
      (fun t => t.ep.ep0.phase == .statusIn) = true := by decide +kernel

/-- The slot a completion of `bc` bytes leaves. -/
def done (x : Slot) (bc : BitVec 10) (pid : BitVec 4) : Slot := { x with own := false, bc := bc, pid := pid }

/-- EP0 in a phase with `rem` bytes left at 0x20000100, one completed packet on its selector's slot. -/
def ep0Has (ph : Phase) (rem : BitVec 16) (d : Dir) (bc : BitVec 10) (pid : BitVec 4) : State :=
  let s := setEp sCfg .ep0 { sCfg.ep.ep0 with phase := ph, remaining := rem, ptr := 0x20000100 }
  setSlot s .ep0 d (s.ep.ep0.odd.get d) (done (slot s .ep0 d (s.ep.ep0.odd.get d)) bc pid)

/-- Endpoint `e` likewise. -/
def epHas (e : EpId) (ph : Phase) (rem : BitVec 16) (bc : BitVec 10) (pid : BitVec 4) : State :=
  let s := setEp sCfg e { sCfg.ep.get e with phase := ph, remaining := rem, ptr := 0x20000100 }
  let d := dirOf sCfg.cfg e
  setSlot s e d false (done (slot s e d false) bc pid)

theorem witness_SetupCompletionRunsRequest :
    (Ok (ep0Has .idle 0 .rx 9 pidSetup) ∧ Completed (ep0Has .idle 0 .rx 9 pidSetup) .ep0 .rx false pidSetup ∧
      (slot (ep0Has .idle 0 .rx 9 pidSetup) .ep0 .rx false).bc ≠ 8) ∧
    (Ok (ep0Has .stall 0 .rx 8 pidSetup) ∧ Completed (ep0Has .stall 0 .rx 8 pidSetup) .ep0 .rx false pidSetup ∧
      (slot (ep0Has .stall 0 .rx 8 pidSetup) .ep0 .rx false).bc = 8) := by decide +kernel

/-- A completed packet of `n` bytes on the slot of (e, d) the selector names, in phase `p`. -/
abbrev Has (s : State) (e : EpId) (d : Dir) (p : Phase) (n : BitVec 10) (pid : BitVec 4) : Prop :=
  Ok s ∧ Completed s e d ((s.ep.get e).odd.get d) pid ∧ (s.ep.get e).phase = p ∧
    (slot s e d ((s.ep.get e).odd.get d)).bc = n

-- More than is left; the last byte; a full packet with bytes left; a short packet.
theorem witness_Ep0OutDataStage :
    (Has (ep0Has .dataOut 7 .rx 8 pidOut) .ep0 .rx .dataOut 8 pidOut ∧
      (ep0Has .dataOut 7 .rx 8 pidOut).ep.ep0.remaining.toNat < (8 : BitVec 10).toNat) ∧
    (Has (ep0Has .dataOut 7 .rx 7 pidOut) .ep0 .rx .dataOut 7 pidOut ∧
      (ep0Has .dataOut 7 .rx 7 pidOut).ep.ep0.remaining.toNat = (7 : BitVec 10).toNat ∧
      Writable sCfg.cfg (ep0Has .dataOut 7 .rx 7 pidOut).ep.ep0.ptr.toNat 7) ∧
    (Has (ep0Has .dataOut 128 .rx 64 pidOut) .ep0 .rx .dataOut 64 pidOut ∧
      ¬ ((128 : BitVec 16).toNat = (64 : BitVec 10).toNat ∨ (64 : BitVec 10).toNat < sCfg.cfg.ep0Mps) ∧
      Writable sCfg.cfg (ep0Has .dataOut 128 .rx 64 pidOut).ep.ep0.ptr.toNat 64) ∧
    (Has (ep0Has .dataOut 128 .rx 63 pidOut) .ep0 .rx .dataOut 63 pidOut ∧
      (63 : BitVec 10).toNat < sCfg.cfg.ep0Mps) := by decide +kernel

theorem witness_Ep0OutStatusStages :
    (Has (ep0Has .statusOut 0 .rx 0 pidOut) .ep0 .rx .statusOut 0 pidOut ∧
      Has (ep0Has .statusOut 0 .rx 1 pidOut) .ep0 .rx .statusOut 1 pidOut) ∧
    (Has (ep0Has .dataIn 64 .rx 0 pidOut) .ep0 .rx .dataIn 0 pidOut ∧
      Has (ep0Has .lastIn 64 .rx 0 pidOut) .ep0 .rx .lastIn 0 pidOut ∧
      Has (ep0Has .lastIn 64 .rx 1 pidOut) .ep0 .rx .lastIn 1 pidOut) ∧
    (Has (ep0Has .idle 0 .rx 0 pidOut) .ep0 .rx .idle 0 pidOut ∧
      Has (ep0Has .statusIn 0 .rx 0 pidOut) .ep0 .rx .statusIn 0 pidOut) := by decide +kernel

theorem witness_Ep0InAdvances :
    Has (ep0Has .dataIn 64 .tx 64 pidIn) .ep0 .tx .dataIn 64 pidIn ∧
    Has (ep0Has .lastIn 10 .tx 10 pidIn) .ep0 .tx .lastIn 10 pidIn ∧
    Has (ep0Has .statusIn 0 .tx 0 pidIn) .ep0 .tx .statusIn 0 pidIn := by decide +kernel

theorem witness_EpnInAdvances :
    (Other sCfg.cfg .ep2 ∧ (2 : BitVec 4).toNat = EpId.ep2.num ∧
      Has (epHas .ep2 .dataIn 128 64 pidIn) .ep2 .tx .dataIn 64 pidIn) ∧
    (Other sCfg.cfg .ep3 ∧ (3 : BitVec 4).toNat = EpId.ep3.num ∧
      Has (epHas .ep3 .lastIn 10 10 pidIn) .ep3 .tx .lastIn 10 pidIn) := by decide +kernel

theorem witness_EpnOutAdvances :
    (Other sCfg.cfg .ep1 ∧ (1 : BitVec 4).toNat = EpId.ep1.num ∧
      Has (epHas .ep1 .dataOut 100 63 pidOut) .ep1 .rx .dataOut 63 pidOut ∧
      (63 : BitVec 10).toNat < mps sCfg.cfg .ep1) ∧
    (Other sCfg.cfg .ep4 ∧ (4 : BitVec 4).toNat = EpId.ep4.num ∧
      Has (epHas .ep4 .dataOut 128 64 pidOut) .ep4 .rx .dataOut 64 pidOut ∧
      ¬ ((128 : BitVec 16) - (64 : BitVec 10).setWidth 16 = 0 ∨ (64 : BitVec 10).toNat < mps sCfg.cfg .ep4)) := by
  decide +kernel

theorem witness_UnexpectedCompletionsFault :
    ¬ Completed sCfg .ep0 .rx false pidSetup ∧ ¬ Completed sCfg .ep0 .rx false pidOut ∧
    (Completed (ep0Has .stall 0 .rx 0 pidOut) .ep0 .rx false pidOut ∧
      (ep0Has .stall 0 .rx 0 pidOut).ep.ep0.phase = .stall) ∧
    ¬ (sCfg.ep.ep0.phase = .dataIn ∨ sCfg.ep.ep0.phase = .lastIn ∨ sCfg.ep.ep0.phase = .statusIn) ∧
    (∀ e, e ≠ .ep0 → (2 : BitVec 4).toNat = e.num → ¬ Completed sCfg e .tx false pidIn ∨
      ¬ ((sCfg.ep.get e).phase = .dataIn ∨ (sCfg.ep.get e).phase = .lastIn)) ∧
    (∀ e, e ≠ .ep0 → (1 : BitVec 4).toNat = e.num → ¬ Completed sCfg e .rx false pidOut ∨
      (sCfg.ep.get e).phase ≠ .dataOut) :=
  ⟨by decide +kernel, by decide +kernel, by decide +kernel, by decide +kernel, forall_ep (by decide +kernel),
    forall_ep (by decide +kernel)⟩

theorem witness_SleepAndResume :
    sCfg.dev.conn = .configured ∧ sDef.dev.conn ≠ .configured ∧ sSusp.dev.conn = .suspended ∧
    sCfg.dev.conn ≠ .suspended := by decide +kernel

/-- A queue of two completions, EP1's first. -/
def sTwo : State :=
  setSie (epHas .ep1 .dataOut 100 64 pidOut) { sCfg.sie with tokq := [⟨1, .rx, false⟩, ⟨0, .rx, false⟩] }

/-- A queue with one completion of endpoint 7. -/
def sSeven : State := setSie sCfg { sCfg.sie with tokq := [⟨7, .rx, false⟩] }

theorem witness_TokenEventServesEp0First :
    (sTwo.sie.tokq = [⟨1, .rx, false⟩] ++ ⟨0, .rx, false⟩ :: [] ∧
      (∀ x ∈ [(⟨1, .rx, false⟩ : Completion)], x.ep ≠ 0) ∧ EpId.ep0.num = (0 : BitVec 4).toNat ∧
      EpId.ep0.num < sTwo.cfg.numEp ∧
      decodeCompletion (completionWord (slot sTwo .ep0 .rx false).pid 0 .rx false) = none) ∧
    (let s := setSie sTwo { sTwo.sie with tokq := [⟨1, .rx, false⟩] };
      s.sie.tokq = [] ++ ⟨1, .rx, false⟩ :: [] ∧ EpId.ep1.num = (1 : BitVec 4).toNat ∧
      EpId.ep1.num < s.cfg.numEp ∧
      decodeCompletion (completionWord (slot s .ep1 .rx false).pid 1 .rx false) =
        some (.tokOutEpn 1 false)) ∧
    (sSeven.sie.tokq = [] ++ ⟨7, .rx, false⟩ :: [] ∧ sSeven.cfg.numEp ≤ (7 : BitVec 4).toNat) := by decide +kernel

theorem witness_TokenEventCompletes :
    (Ok sTwo ∧ LegalPhase sTwo.cfg .ep0 sTwo.ep.ep0.phase ∧
      (slot sTwo .ep0 .rx sTwo.ep.ep0.odd.rx).bc.toNat ≤ sTwo.cfg.ep0Mps ∧ sTwo.ep.ep0.phase ≠ .dataOut ∧
      sTwo.sie.tokq ≠ []) ∧
    (let s := ep0Has .dataOut 7 .rx 7 pidOut;
      Ok s ∧ LegalPhase s.cfg .ep0 s.ep.ep0.phase ∧
      (slot s .ep0 .rx s.ep.ep0.odd.rx).bc.toNat ≤ s.cfg.ep0Mps ∧
      ∀ n, n ≤ s.ep.ep0.remaining.toNat → Writable s.cfg s.ep.ep0.ptr.toNat n) := by decide +kernel

/-- A client buffer in RAM no region or armed slot meets. -/
theorem example_buffer_admitted (len : BitVec 16) (h : len = 64 ∨ len = 0xFFFF ∨ len = 0) (d : Dir) :
    (∀ s ∈ [sCfg], ∀ e g k, (slot s e g k).own = true →
      meets ⟨(slot s e g k).addr.toNat, (slot s e g k).bc.toNat⟩ 0x21000100 len.toNat = false) ∧
    BufAdmitted sCfg d 0x21000100 len := by
  have key : ∀ e g k, (slot sCfg e g k).own = true →
      meets ⟨(slot sCfg e g k).addr.toNat, (slot sCfg e g k).bc.toNat⟩ 0x21000100 len.toNat = false := by
    rcases h with rfl | rfl | rfl <;> exact forall_slot (by decide +kernel)
  refine ⟨by simpa using key, .inr ⟨?_, ?_, fun _ => ⟨?_, key⟩⟩⟩ <;>
    rcases h with rfl | rfl | rfl <;> decide +kernel

theorem witness_StartChecksAndArms :
    ((∀ i, ¬ ClientEp sCfg 0 i) ∧ (∀ i, ¬ ClientEp sCfg 6 i) ∧ ∀ i, ¬ ClientEp sAdr 2 i) ∧
    (ClientEp sCfg 1 .ep1 ∧ dirOf sCfg.cfg .ep1 ≠ .tx) ∧
    (ClientEp sHalt 2 .ep2 ∧ dirOf sCfg.cfg .ep2 = .tx ∧ (sHalt.ep.get .ep2).phase ≠ .idle) ∧
    (ClientEp sCfg 3 .ep3 ∧ dirOf sCfg.cfg .ep3 = .tx ∧ (sCfg.ep.get .ep3).phase = .idle ∧
      mps sCfg.cfg .ep3 < (17 : BitVec 16).toNat) ∧
    (ClientEp sCfg 5 .ep5 ∧ (sCfg.ep.get .ep5).phase = .idle ∧ (64 : BitVec 16).toNat ≤ mps sCfg.cfg .ep5 ∧
      BufAdmitted sCfg .tx 0 64) ∧
    (ClientEp sCfg 4 .ep4 ∧ dirOf sCfg.cfg .ep4 = .rx ∧ (sCfg.ep.get .ep4).phase = .idle ∧
      BufAdmitted sCfg .rx 0x21000100 0xFFFF) ∧
    ¬ BufAdmitted sCfg .tx 0xFFFFFFFF 2 :=
  ⟨⟨forall_ep (by decide +kernel), forall_ep (by decide +kernel), forall_ep (by decide +kernel)⟩,
    by decide +kernel, by decide +kernel, by decide +kernel,
    ⟨by decide +kernel, by decide +kernel, by decide +kernel, .inl rfl⟩,
    ⟨by decide +kernel, by decide +kernel, by decide +kernel, (example_buffer_admitted _ (by decide) _).2⟩,
    fun h => h.elim (by decide) fun h => absurd h.1 (by decide)⟩

theorem witness_StallAndCallbackCommands :
    (∀ i, ¬ ClientEp sCfg 0 i) ∧ (∀ i, ¬ ClientEp sDef 2 i) ∧ (∀ i, ¬ ClientEp sCfg 255 i) ∧
    ClientEp sHalt 2 .ep2 ∧ ClientEp sCfg 5 .ep5 :=
  ⟨forall_ep (by decide +kernel), forall_ep (by decide +kernel), forall_ep (by decide +kernel), by decide +kernel,
    by decide +kernel⟩

/-- A configuration of another map: EP1 interrupt IN of the CDC interface, EP2 bulk OUT and EP3 bulk IN of the vendor
interface, the CDC data interface without endpoints. -/
def cOther : Params := { Params.example with
  numEp := 4
  epMap := [⟨.control, .both, .ep0Mps, none⟩, ⟨.interrupt, .only .tx, .bytes 12, some 1⟩,
    ⟨.bulk, .only .rx, .bytes 32, some 0⟩, ⟨.bulk, .only .tx, .bulkMps, some 0⟩]
  buf := Params.example.buf.take 4
  configDesc :=
    (([0x09, 0x02, 0x54, 0x00, 0x03, 0x01, 0x00, 0xA0, 0x32] ++ [0x09, 0x04, 0x00, 0x00, 0x02, 0xFF, 0x00, 0x00, 0x04]) ++
      ([0x07, 0x05, 0x02, 0x02, 0x20, 0x00, 0x00] ++ [0x07, 0x05, 0x83, 0x02, 0x40, 0x00, 0x00])) ++
    (exampleConfigComm.take 36 ++ [0x07, 0x05, 0x81, 0x03, 0x0C, 0x00, 0x10]) ++
    [0x09, 0x04, 0x02, 0x00, 0x00, 0x0A, 0x00, 0x00, 0x00] }

/-- As few endpoints as R57 lets there be: EP0 and a CDC data OUT endpoint. -/
def cFew : Params := { Params.example with
  numEp := 2
  epMap := [⟨.control, .both, .ep0Mps, none⟩, ⟨.bulk, .only .rx, .bulkMps, some 2⟩]
  buf := Params.example.buf.take 2
  configDesc :=
    ([0x09, 0x02, 0x46, 0x00, 0x03, 0x01, 0x00, 0xA0, 0x32] ++ [0x09, 0x04, 0x00, 0x00, 0x00, 0xFF, 0x00, 0x00, 0x04]) ++
    (exampleConfigComm.take 12 ++ [0x00] ++ (exampleConfigComm.take 36).drop 13) ++
    [0x09, 0x04, 0x02, 0x00, 0x01, 0x0A, 0x00, 0x00, 0x00] ++ [0x07, 0x05, 0x01, 0x02, 0x40, 0x00, 0x00] }

/-- EP0 alone, all else kept right: refused (R57). -/
def cAlone : Params := { cFew with
  numEp := 1
  epMap := cFew.epMap.take 1
  buf := cFew.buf.take 1
  configDesc :=
    ([0x09, 0x02, 0x3F, 0x00] ++ (cFew.configDesc.take 58).drop 4) ++ [0x00, 0x0A, 0x00, 0x00, 0x00] }

/-- Configured, in another configuration. -/
def configuredIn (c : Params) : State :=
  let s := after (exec .evUsbrst (State.powerOn c))
  configure (setDev s { s.dev with conn := .addressed, addr := 5 }) 1

theorem other_maps_ok : buildOk cOther = true ∧ buildOk cFew = true ∧ Ok (configuredIn cOther) := by decide +kernel

-- R329, R57, R161(c), R335: the endpoints are those of the map.
theorem test_other_map_endpoints :
    (allEps.filter fun e => ((configuredIn cOther).ep.get e).enabled) = [.ep0, .ep1, .ep2, .ep3] ∧
    tokenTo (configuredIn cOther) 5 3 = some .ep3 ∧ tokenTo (configuredIn cOther) 5 4 = none ∧
    epCheck (configuredIn cOther) 0x81 = some .ep1 ∧ epCheck (configuredIn cOther) 0x01 = none ∧
    epCheck (configuredIn cOther) 0x04 = none := by decide +kernel

-- R57: SET_CONFIGURATION enables another endpoint in the smallest configuration too.
theorem test_few_endpoints :
    (configuredIn cFew).dev.config = 1 ∧
    (allEps.filter fun e => ((configuredIn cFew).ep.get e).enabled) = [.ep0, .ep1] := by decide +kernel

-- R418, R244: notify, sendData and receiveData use the map's endpoints, and fault F2 where it has none.
theorem test_other_map_roles :
    goes (exec (.notify 3) (configuredIn cOther)) (fun t => (slot t .ep1 .tx false).own &&
      (slot t .ep1 .tx false).addr == 0x20004280 && (slot t .ep1 .tx false).bc == 10) = true ∧
    goes (exec (.sendData 0x20000100 10) (configuredIn cOther)) (fun t => (slot t .ep3 .tx false).own &&
      t.client.sendWait) = true ∧
    goes (exec (.receiveData 0x20000100 100) (configuredIn cOther)) (fun t => (slot t .ep2 .rx false).bc == 32 &&
      t.client.recvWait) = true ∧
    goes (exec (.sendData 0x20000100 10) (configuredIn cFew)) (fun t => t.fault.f2 && !t.client.sendWait) = true ∧
    goes (exec (.notify 3) (configuredIn cFew)) (fun t => t.fault.f2) = true := by decide +kernel

-- R7: the named endpoints of the default map.
theorem test_named_endpoints :
    let c := Params.example
    epBulkIn c = some .ep2 ∧ epBulkOut c = some .ep1 ∧ epNotify c = some .ep3 ∧ epCdcOut c = some .ep4 ∧
      epCdcIn c = some .ep5 := by decide +kernel

-- R7, R210, D4: maps that are refused.
theorem test_map_checks :
    let with1 := fun x => buildOk { cOther with epMap := cOther.epMap.set 1 x }
    with1 ⟨.interrupt, .only .tx, .bytes 12, some 1⟩ = true ∧ with1 ⟨.interrupt, .both, .bytes 12, some 1⟩ = false ∧
    with1 ⟨.control, .only .tx, .bytes 12, some 1⟩ = false ∧ with1 ⟨.interrupt, .only .tx, .bytes 12, none⟩ = false ∧
    with1 ⟨.interrupt, .only .rx, .bytes 12, some 1⟩ = false ∧ with1 ⟨.interrupt, .only .tx, .intMps, some 1⟩ = false ∧
    buildOk { Params.example with numEp := 17 } = false ∧
    configDescOk cAlone = true ∧ mapOk cAlone = false ∧ buildOk { Params.example with numEp := 0 } = false ∧
    mapOk { cOther with epMap := cOther.epMap.set 1 ⟨.interrupt, .only .tx, .bytes 9, some 1⟩ } = false ∧
    mapOk { cOther with epMap := cOther.epMap.set 2 ⟨.bulk, .only .rx, .bytes 20, some 0⟩ } = false := by
  decide +kernel

/-- The role of a found endpoint (Laws/Operands.lean). -/
theorem role_of {c : Params} {t : EpType} {d : Dir} {i : BitVec 8} {e : EpId}
    (h : epOfRole c t d i = some e) : HasRole c t d i e := epOfRole_some.1 h

theorem witness_NotifySendsSerialState :
    (Ok sCfg ∧ sCfg.cfg.epMap = defaultMap ∧ sCfg.cfg.ifCdcComm = 1 ∧ 3 < sCfg.cfg.numEp) ∧
    (Ok (configuredIn cFew) ∧ ∀ e, ¬ HasRole cFew .interrupt .tx cFew.ifCdcComm e) ∧
    (HasRole Params.example .interrupt .tx Params.example.ifCdcComm .ep3 ∧ sCfg.cfg = Params.example ∧
      HasRole cOther .interrupt .tx cOther.ifCdcComm .ep1 ∧ (configuredIn cOther).cfg = cOther ∧
      (configuredIn cOther).ep.ep1.enabled = true ∧ (configuredIn cOther).ep.ep1.phase = .idle) ∧
    (Ok sAdr ∧ sAdr.ep.ep3.enabled = false) ∧
    (Ok (stallEp sCfg .ep3) ∧ (stallEp sCfg .ep3).ep.ep3.enabled = true ∧
      (stallEp sCfg .ep3).ep.ep3.phase ≠ .idle) ∧
    (Ok sCfg ∧ sCfg.ep.ep3.enabled = true ∧ sCfg.ep.ep3.phase = .idle) :=
  ⟨by decide +kernel, ⟨by decide +kernel, epOfRole_none.1 (by decide +kernel)⟩,
    ⟨role_of (by decide +kernel), by decide +kernel, role_of (by decide +kernel), by decide +kernel, by decide +kernel,
      by decide +kernel⟩, by decide +kernel, by decide +kernel, by decide +kernel⟩

theorem witness_BlockingCallsStartAndWait :
    (sCfg.cfg.epMap = defaultMap ∧ sCfg.cfg.ifVendor = 0 ∧ 2 < sCfg.cfg.numEp) ∧
    (HasRole sCfg.cfg .bulk .tx sCfg.cfg.ifVendor .ep2 ∧ HasRole sCfg.cfg .bulk .rx sCfg.cfg.ifVendor .ep1 ∧
      HasRole sAdr.cfg .bulk .tx sAdr.cfg.ifVendor .ep2) ∧
    (HasRole cOther .bulk .tx cOther.ifVendor .ep3 ∧ HasRole cOther .bulk .rx cOther.ifVendor .ep2) ∧
    ((∀ e, ¬ HasRole cFew .bulk .tx cFew.ifVendor e) ∧ ∀ e, ¬ HasRole cFew .bulk .rx cFew.ifVendor e) ∧
    exec (.startTx 2 10 0x21000100) sAdr = .next (faulted sAdr .f2) ∧
    exec (.startRx 1 65 0) sCfg = .next (faulted sCfg .f3) ∧
    (buildOk sCfg.cfg = true ∧ sCfg.ep.ep2.enabled = true ∧ sCfg.ep.ep2.phase = .idle ∧
      BufAdmitted sCfg .tx 0x21000100 64) ∧
    (sCfg.ep.ep1.enabled = true ∧ sCfg.ep.ep1.phase = .idle ∧ (64 : BitVec 16).toNat ≤ mps sCfg.cfg .ep1 ∧
      BufAdmitted sCfg .rx 0 64 ∧ BufAdmitted sCfg .rx 0x21000100 64) :=
  ⟨by decide +kernel, ⟨role_of (by decide +kernel), role_of (by decide +kernel), role_of (by decide +kernel)⟩,
    ⟨role_of (by decide +kernel), role_of (by decide +kernel)⟩,
    ⟨epOfRole_none.1 (by decide +kernel), epOfRole_none.1 (by decide +kernel)⟩,
    goes_eq (by decide +kernel), goes_eq (by decide +kernel),
    ⟨by decide +kernel, by decide +kernel, by decide +kernel, (example_buffer_admitted _ (by decide) _).2⟩,
    ⟨by decide +kernel, by decide +kernel, by decide +kernel, .inl rfl, (example_buffer_admitted _ (by decide) _).2⟩⟩

/-- A waiting receiveData whose packet has arrived. -/
def sReceived : State :=
  { after (runLine (.hOut 5 1 false [1, 2, 3, 4, 5]) (after (exec (.receiveData 0x20000200 64) sCfg))) with
    lines := [.dispatch true] }

/-- A sendData and a receiveData that wait, with a client command and a host line to come. -/
def sWaits : State :=
  { after (exec (.receiveData 0x20000200 64) (after (exec (.sendData 0x20000100 10) sCfg))) with
    lines := [.client [9], .memWrite 0x21000100 [1], .hIdle] }

theorem witness_WaitsEndWithTheirEndpoint :
    (∃ t, step { sCfg with lines := [.client [7, 0, 1, 0, 0x20, 10, 0]] } = .next t ∧ t.client.sendWait = true) ∧
    (∃ t, step { sCfg with lines := [.client [8, 0, 2, 0, 0x20, 10, 0]] } = .next t ∧ t.client.recvWait = true) ∧
    (sReceived.client.recvWait = true ∧ nextLine sReceived ≠ some .init ∧
      ∃ t, step sReceived = .next t ∧ (!t.client.recvWait) = true) ∧
    (HasRole sWaits.cfg .bulk .tx sWaits.cfg.ifVendor .ep2 ∧ HasRole sWaits.cfg .bulk .rx sWaits.cfg.ifVendor .ep1 ∧
      HasRole sReceived.cfg .bulk .rx sReceived.cfg.ifVendor .ep1) ∧
    (Waits sWaits ∧ sWaits.client.sendWait = true ∧ sWaits.client.recvWait = true ∧ nextLine sWaits ≠ some .init ∧
      ∃ t, step sWaits = .next t ∧ (t.ep.ep2.enabled && t.ep.ep2.phase != .idle && t.ep.ep1.enabled &&
        t.ep.ep1.phase != .idle && t.client.recvWait == sWaits.client.recvWait) = true) :=
  ⟨goes_next (by decide +kernel), goes_next (by decide +kernel),
    ⟨by decide +kernel, by decide +kernel, goes_next (by decide +kernel)⟩,
    ⟨role_of (by decide +kernel), role_of (by decide +kernel), role_of (by decide +kernel)⟩,
    ⟨by decide +kernel, by decide +kernel, by decide +kernel, by decide +kernel,
      goes_next (p := fun t => t.ep.ep2.enabled && t.ep.ep2.phase != .idle && t.ep.ep1.enabled &&
        t.ep.ep1.phase != .idle && t.client.recvWait == sWaits.client.recvWait) (by decide +kernel)⟩⟩

-- R244, R452: while a call waits the client takes no step, its lines stay; R497: clearStall may come.
theorem test_client_waits :
    goes (step sWaits) (fun t => t.lines == [.client [9], .memWrite 0x21000100 [1]] && t.dev.istat == 0x10 &&
      !t.client.confRet) = true ∧
    goes (step { sWaits with lines := [.client [9], .client [4, 2]] }) (fun t => t.lines == [.client [9]] &&
      t.ep.ep2.phase == .idle && !t.client.sendWait && t.client.recvWait) = true := by decide +kernel

theorem witness_TokenFilterIsSilent :
    ¬ Reaches sCfg 5 1 .rx .ep0 ∧ ¬ Reaches sCfg 4 0 .rx .ep0 ∧ ¬ Reaches sSusp 5 0 .rx .ep0 ∧
    (∀ i, ¬ Reaches sCfg 5 2 .rx i) ∧ (∀ i, ¬ Reaches sCfg 5 6 .rx i) ∧
    (∀ i, ¬ Reaches sCfg 5 1 .tx i) ∧ (∀ i, ¬ Reaches sAdr 5 2 .tx i) :=
  ⟨by decide +kernel, by decide +kernel, by decide +kernel, forall_ep (by decide +kernel),
    forall_ep (by decide +kernel), forall_ep (by decide +kernel), forall_ep (by decide +kernel)⟩

theorem witness_SetupTransaction :
    (memWf sTwo = true ∧ Reaches sTwo 5 0 .rx .ep0) ∧
    (let s := setSie sCfg { sCfg.sie with tokenSuspended := true };
      Reaches s 5 0 .rx .ep0 ∧ HeldOff s) ∧
    (Reaches (ep0Has .idle 0 .rx 8 pidOut) 5 0 .rx .ep0 ∧
      (slot (ep0Has .idle 0 .rx 8 pidOut) .ep0 .rx false).own = false) ∧
    (memWf sCfg = true ∧ Reaches sCfg 5 0 .rx .ep0 ∧ ¬ HeldOff sCfg ∧ (slot sCfg .ep0 .rx false).own = true ∧
      (slot sCfg .ep0 .rx false).bc.toNat < (List.replicate 65 (0 : Byte)).length ∧
      (List.replicate 64 (0 : Byte)).length ≤ (slot sCfg .ep0 .rx false).bc.toNat ∧
      Writable sCfg.cfg (slot sCfg .ep0 .rx false).addr.toNat 64) := by decide +kernel

/-- EP1 armed for two packets. -/
def sRx : State := after (exec (.startRx 1 128 0x20000200) sCfg)

theorem witness_OutTransaction :
    (let s := stallEp sCfg .ep1;
      memWf s = true ∧ Reaches s 5 1 .rx .ep1 ∧ (slot s .ep1 .rx false).stall = true) ∧
    (memWf sCfg = true ∧ Reaches sCfg 5 1 .rx .ep1 ∧ (slot sCfg .ep1 .rx false).stall = false ∧
      (slot sCfg .ep1 .rx false).own = false) ∧
    (memWf sRx = true ∧ Reaches sRx 5 1 .rx .ep1 ∧ (slot sRx .ep1 .rx false).stall = false ∧ ¬ HeldOff sRx ∧
      (slot sRx .ep1 .rx false).own = true ∧ (slot sRx .ep1 .rx false).bc.toNat = 64 ∧
      Writable sRx.cfg (slot sRx .ep1 .rx false).addr.toNat 64 ∧
      true ≠ (slot sRx .ep1 .rx false).data01 ∧ false = (slot sRx .ep1 .rx false).data01) := by decide +kernel

/-- EP2 armed for one packet. -/
def sTx : State := after (exec (.startTx 2 3 0x20000100) sCfg)

theorem witness_InTransaction :
    (Reaches sHalt 5 2 .tx .ep2 ∧ (slot sHalt .ep2 .tx false).stall = true) ∧
    (Reaches sCfg 5 2 .tx .ep2 ∧ (slot sCfg .ep2 .tx false).stall = false ∧
      (slot sCfg .ep2 .tx false).own = false) ∧
    (Reaches sTx 5 2 .tx .ep2 ∧ (slot sTx .ep2 .tx false).stall = false ∧ ¬ HeldOff sTx ∧
      (slot sTx .ep2 .tx false).own = true ∧
      (slot sTx .ep2 .tx false).addr.toNat + (slot sTx .ep2 .tx false).bc.toNat ≤ 2 ^ 32) := by decide +kernel

theorem witness_BusSignalsSetBits : (1 : BitVec 8) ≠ 0 := by decide

/-- The same start state with a line to run. -/
def run1 (s : State) (l : Line) : State := { s with lines := [l] }

/-- A SETUP waiting to be dispatched, with no line left. -/
def sWaiting : State := after (runLine (.hSetup 5 0 [0x80, 8, 0, 0, 0, 0, 1, 0]) sCfg)

theorem witness_StepRunsTheDecodedOperation :
    buildOk sCfg.cfg = true ∧
    ((run1 sCfg (.client [9])).lines = .client [9] :: [] ∧ decode .cmd [9] = .ok .isConfigured) ∧
    ((run1 sWaiting (.dispatch true)).lines = .dispatch true :: [] ∧
      decodeEvent (pending (run1 sWaiting (.dispatch true))) true = some .evTokdne) ∧
    ((run1 sCfg (.dispatch true)).lines = .dispatch true :: [] ∧ pending (run1 sCfg (.dispatch true)) = 0) ∧
    ((run1 sCfg (.backend 3)).lines = .backend 3 :: []) ∧
    (¬ Waits sCfg ∧ memWf sCfg = true ∧ Writable sCfg.cfg (0x21000100 : Addr).toNat 2 ∧
      ⟨0x8000, 18⟩ ∈ romRegions sCfg.cfg ∧ InRange 0x8011 0x8000 18 ∧ InRange 0x8011 (0x8011 : Addr).toNat 1) ∧
    ((∀ l ∈ [Line.client [9], .memWrite 0x21000100 [1]], Held sWaits l) ∧ ¬ Held sWaits .hIdle ∧
      sWaits.lines = [.client [9], .memWrite 0x21000100 [1]] ++ .hIdle :: [] ∧
      decode .cmd [4, 2] = .ok (.clearStall 2) ∧ pending sWaits = 0) ∧
    (sCfg.lines = [] ∧ pending sCfg = 0) ∧
    (sWaiting.lines = [] ∧ decodeEvent (pending sWaiting) (Config.freeGenuine sWaiting.draws) = some .evTokdne) :=
  ⟨by decide +kernel, by decide +kernel, by decide +kernel, by decide +kernel, rfl, by decide +kernel,
    ⟨fun l h => lineHeld_iff.1 ((by decide +kernel : ∀ x ∈ [Line.client [9], .memWrite 0x21000100 [1]],
      lineHeld sWaits x = true) l h), fun h => absurd (lineHeld_iff.2 h) (by decide +kernel), by decide +kernel,
      by decide +kernel, by decide +kernel⟩, by decide +kernel,
    ⟨by decide +kernel, by
      have h : pending sWaiting = 8 := by decide +kernel
      rw [h]; rfl⟩⟩

-- R96, R83: a client's write stores its bytes; a write to ROM is refused.
theorem test_client_write :
    goes (step (run1 sCfg (.memWrite 0x21000100 [5, 0, 6]))) (fun t => peeks t 0x21000100 4 == [5, 0, 6, 0]) = true ∧
    refuses (step (run1 sCfg (.memWrite 0x8011 [1]))) .romWrite = true := by decide +kernel

-- R490: a slot the SIE owns already is flagged when it is armed.
theorem test_owned_write :
    goes (exec (.startTx 2 10 0x20000100) (setSlot sCfg .ep2 .tx false { slot sCfg .ep2 .tx false with own := true }))
      (fun t => t.ownedWrite) = true ∧
    goes (exec (.startTx 2 10 0x20000100) sCfg) (fun t => !t.ownedWrite) = true := by decide +kernel

/-- The example configuration without its third functional descriptor, `wTotalLength` and all else kept right. -/
def cNoFunctional : Params := { Params.example with
  configDesc := (([0x09, 0x02, 0x5E, 0x00] ++ exampleConfigVendor.drop 4) ++
    (exampleConfigComm.take 27 ++ exampleConfigComm.drop 31)) ++ exampleConfigData }

-- R81, R133: ROM may lie at address 0, a buffer may not. R213, R6, R501: what is refused.
theorem test_build_checks :
    buildOk { Params.example with devDescAddr := 0 } = true ∧ buildOk { Params.example with scratchAddr := 0 } = false ∧
    buildOk cNoFunctional = false ∧
    buildOk { Params.example with numEp := 5 } = false ∧ buildOk { Params.example with ifCdcData := 3 } = false ∧
    buildOk { Params.example with epMap := Params.example.epMap.set 3 ⟨.bulk, .only .tx, .intMps, some 1⟩ } = false ∧
    buildOk { Params.example with
      vendorHook := some [⟨vendorPacket 0x40 1 0, none, ⟨[(0, 1)], [], .stall .s7⟩⟩] } = false := by decide +kernel

theorem witness_BuildChecksGateTheRun :
    buildOk { Params.example with ep0Mps := 7 } = false ∧ buildOk Params.example = true ∧
    buildOk cOther = true ∧ HasRole cOther .interrupt .tx cOther.ifCdcComm .ep1 :=
  ⟨by decide +kernel, by decide +kernel, by decide +kernel, role_of (by decide +kernel)⟩

theorem witness_ConfigurationIsConstant :
    memWf (run1 sCfg .hIdle) = true ∧ (∃ t, step (run1 sCfg .hIdle) = .next t ∧ true = true) ∧
    nextLine (run1 sCfg .hIdle) ≠ some .init ∧ 17 < sCfg.cfg.deviceDesc.length ∧
    97 < sCfg.cfg.configDesc.length ∧ 3 < sCfg.cfg.langidDesc.length :=
  ⟨by decide +kernel, goes_next (p := fun _ => true) (by decide +kernel), by decide +kernel, by decide +kernel,
    by decide +kernel, by decide +kernel⟩

/-- A step that writes memory: a client's byte over the last byte of RAM, and an OUT packet to an armed slot. -/
theorem witness_MemoryStaysCanonical :
    memWf (run1 sRx (.hOut 5 1 false [7])) = true ∧
    ∃ t, step (run1 sRx (.hOut 5 1 false [7])) = .next t ∧ decide (t.mem ≠ sRx.mem) = true :=
  ⟨by decide +kernel, goes_next (p := fun t => decide (t.mem ≠ sRx.mem)) (by decide +kernel)⟩

theorem witness_WritesAreBounded :
    memWf (run1 sRx (.hOut 5 1 false [7])) = true ∧
    ∃ t, step (run1 sRx (.hOut 5 1 false [7])) = .next t ∧
      (peek t 0x20000200 != peek (run1 sRx (.hOut 5 1 false [7])) 0x20000200) = true :=
  ⟨by decide +kernel, goes_next
    (p := fun t => peek t 0x20000200 != peek (run1 sRx (.hOut 5 1 false [7])) 0x20000200) (by decide +kernel)⟩

/-- A state met in a run: EP0 has sent the last packet of a reply, whose completion waits, and the next step
dispatches it. -/
def sQueued : State := run1 (after (runLine (.hIn 5 0 true) (afterSetup sCfg [0x80, 8, 0, 0, 0, 0, 1, 0])))
  (.dispatch true)

theorem queued_queue : sQueued.sie.tokq = [⟨0, .tx, false⟩] ∧ sQueued.ep.ep0.phase = .lastIn := by decide +kernel

theorem queued_dev_inv : DevInv sQueued :=
  ⟨by decide +kernel, by decide +kernel, by decide +kernel, by decide +kernel, by decide +kernel,
    by decide +kernel, forall_ep (by decide +kernel)⟩

theorem queued_enabled_inv : EnabledInv sQueued :=
  enabledInv_of_each (by decide +kernel) (forall_ep (by decide +kernel))

theorem queued_slot_inv : SlotInv sQueued where
  depth := by decide +kernel
  ep0On := by decide +kernel
  legal := forall_ep (by decide +kernel)
  off := forall_ep (by decide +kernel)
  owned := forall_slot (by decide +kernel)
  ownedPhase := forall_slot (by decide +kernel)
  single := fun e d => forall_slot (p := fun e d _ => queued sQueued e d ≤ 1) (by decide +kernel) e d true
  exclusive := forall_slot (by decide +kernel)
  pointer := fun e d => forall_slot (p := fun e d _ => (sQueued.sie.odd.get e).get d =
    if queued sQueued e d = 0 then (sQueued.ep.get e).odd.get d else !((sQueued.ep.get e).odd.get d))
    (by decide +kernel) e d true
  stall := forall_slot (by decide +kernel)
  queue := by
    rw [queued_queue.1]
    intro c h
    rw [List.mem_singleton] at h
    subst h
    exact ⟨.ep0, by decide +kernel⟩
  setupLast := by
    intro q c r h _ hd
    rw [queued_queue.1] at h
    cases q with
    | nil => cases h; cases hd
    | cons x q => cases q <;> cases h

theorem queued_arm_inv : ArmInv sQueued where
  attached := fun h => absurd h (by decide +kernel)
  rx := fun _ _ => by decide +kernel
  armed := fun e d => forall_slot (p := fun e d _ => ActivePhase sQueued.cfg e d (sQueued.ep.get e).phase →
    (e = .ep0 → sQueued.dev.conn ≠ .attached) → queued sQueued e d = 0 →
    (slot sQueued e d ((sQueued.ep.get e).odd.get d)).own = true) (by decide +kernel) e d true
  cursor := forall_slot (by decide +kernel)
  tokens := fun h => absurd h (by decide +kernel)

theorem witness_DeviceInvariantsKept :
    DevInv sQueued ∧ EnabledInv sQueued ∧ ∃ t, step sQueued = .next t ∧ (t.ep.ep0.phase == .statusOut) = true :=
  ⟨queued_dev_inv, queued_enabled_inv, goes_next (p := fun t => t.ep.ep0.phase == .statusOut) (by decide +kernel)⟩

theorem witness_SlotInvariantKept :
    DevInv sQueued ∧ EnabledInv sQueued ∧ SlotInv sQueued ∧
      ∃ t, step sQueued = .next t ∧ (t.ep.ep0.phase == .statusOut) = true :=
  ⟨queued_dev_inv, queued_enabled_inv, queued_slot_inv,
    goes_next (p := fun t => t.ep.ep0.phase == .statusOut) (by decide +kernel)⟩

theorem witness_ArmingInvariantKept :
    SlotInv sQueued ∧ ArmInv sQueued ∧ ∃ t, step sQueued = .next t ∧ (t.ep.ep0.phase == .statusOut) = true :=
  ⟨queued_slot_inv, queued_arm_inv, goes_next (p := fun t => t.ep.ep0.phase == .statusOut) (by decide +kernel)⟩

theorem witness_SetupIsAlwaysAccepted :
    Ok sQueued ∧ SlotInv sQueued ∧ ArmInv sQueued ∧ sQueued.dev.conn ≠ .attached ∧
    sQueued.dev.epActive = true ∧ (∀ c ∈ sQueued.sie.tokq, ¬ (c.ep = 0 ∧ c.dir = .rx)) ∧
    sQueued.sie.tokq.length < sQueued.cfg.tokqDepth :=
  ⟨by decide +kernel, queued_slot_inv, queued_arm_inv, by decide +kernel, by decide +kernel, by decide +kernel,
    by decide +kernel⟩

-- A fault of F1 before, a dispatch after it.
theorem witness_FaultsAreSticky :
    SlotInv sQueued ∧ (∃ t, step sQueued = .next t ∧ true = true) ∧ nextLine sQueued ≠ some .init ∧
    (let s := { sQueued with fault := addReason sQueued.fault .f1 };
      hasReason s.fault .f1 = true ∧ (∃ t, step s = .next t ∧ true = true) ∧ nextLine s ≠ some .init) :=
  ⟨queued_slot_inv, goes_next (p := fun _ => true) (by decide +kernel), by decide +kernel, by decide +kernel,
    goes_next (p := fun _ => true) (by decide +kernel), by decide +kernel⟩

/-- A bus reset waiting to be served in the state `s`. -/
def resetWaits (s : State) : State := run1 (after (runLine .hReset s)) (.dispatch true)

theorem reset_waits_dev_inv : DevInv (resetWaits State.reset) :=
  ⟨by decide +kernel, by decide +kernel, by decide +kernel, by decide +kernel, by decide +kernel,
    by decide +kernel, forall_ep (by decide +kernel)⟩

theorem witness_ConnectionMoves :
    DevInv (resetWaits State.reset) ∧ nextLine (resetWaits State.reset) ≠ some .init ∧
    (resetWaits State.reset).dev.conn = .attached ∧
    ∃ t, step (resetWaits State.reset) = .next t ∧
      decide (t.dev.conn ≠ (resetWaits State.reset).dev.conn) = true :=
  ⟨reset_waits_dev_inv, by decide +kernel, by decide +kernel,
    goes_next (p := fun t => decide (t.dev.conn ≠ (resetWaits State.reset).dev.conn)) (by decide +kernel)⟩

-- A completion moves EP0; a bus reset ends its transfer.
theorem witness_Ep0PhaseMoves :
    (nextLine sQueued ≠ some .init ∧ (pending sQueued).getLsbD 0 = false ∧
      (∀ c ∈ sQueued.sie.tokq, c.ep = 0 → c.dir = .rx → (slot sQueued .ep0 .rx c.odd).pid ≠ 0xD) ∧
      ∃ t, step sQueued = .next t ∧ decide (t.ep.ep0.phase ≠ sQueued.ep.ep0.phase) = true) ∧
    (nextLine (resetWaits sQueued) ≠ some .init ∧ (pending (resetWaits sQueued)).getLsbD 0 = true ∧
      nextLine (resetWaits sQueued) = some (.dispatch true) ∧
      ∃ t, step (resetWaits sQueued) = .next t ∧
        decide (t.ep.ep0.phase ≠ (resetWaits sQueued).ep.ep0.phase) = true) :=
  ⟨⟨by decide +kernel, by decide +kernel, by decide +kernel,
      goes_next (p := fun t => decide (t.ep.ep0.phase ≠ sQueued.ep.ep0.phase)) (by decide +kernel)⟩,
    by decide +kernel, by decide +kernel, by decide +kernel,
    goes_next (p := fun t => decide (t.ep.ep0.phase ≠ (resetWaits sQueued).ep.ep0.phase)) (by decide +kernel)⟩

theorem witness_DecodeEncodeRoundTrip :
    (Instr.setAddress 0xFFFF 0xFFFF 0xFFFF).wf = true ∧ (Instr.getDescriptorOther 0xFF 1 2 3).wf = true ∧
    (Instr.stdUnmatched 0x1F 0xFF 0 0 0).wf = true ∧ (Instr.tokInEpn 15 true).wf = true ∧
    (Instr.setCallback 255 (2 ^ 32 - 1)).wf = true := by decide +kernel

theorem witness_OperationsDecodeByTheirRows :
    decodeCompletion 0x92C = some (.tokInEpn 2 true) ∧ decodeCompletion 0x108 = none ∧
    (0x108 : BitVec 12).setWidth 32 = 0x108 := by decide


end Sys2Proof.Tests
end

section
/-! PROOFS. What one step can do, said once: the changes no invariant reads (`Calm`), and the effects of one agent's
step on the device registers, the endpoints, the slots and the queue (`Effect`). Every invariant of 10_state.md is
then a case analysis over `Effect`. -/

namespace Sys2Proof.Machine

/-! ## Going on -/

/-- A sequence goes on exactly where both of its parts do. -/
theorem andThen_next {α β : Type} {r : Host.Outcome α Fault Refusal} {f : α → Host.Outcome β Fault Refusal} {b : β} :
    andThen r f = .next b ↔ ∃ a, r = .next a ∧ f a = .next b := by
  cases r <;> simp [andThen]

/-! ## Calm changes -/

/-- The device registers the invariants read are the same. -/
structure DevSame (d d' : DeviceState) : Prop where
  conn : d'.conn = d.conn
  config : d'.config = d.config
  addr : d'.addr = d.addr
  selfPowered : d'.selfPowered = d.selfPowered
  epActive : d'.epActive = d.epActive

/-- `t` differs from `s` in nothing an invariant reads: the configuration, the hooks, the endpoints, the slots, the
SIE's pointers and its queue are the same, and memory stays canonical. -/
structure Calm (s t : State) : Prop where
  cfg : t.cfg = s.cfg
  hooks : t.hooks = s.hooks
  dev : DevSame s.dev t.dev
  ep : t.ep = s.ep
  bdt : t.bdt = s.bdt
  odd : t.sie.odd = s.sie.odd
  tokq : t.sie.tokq = s.sie.tokq
  suspended : t.sie.tokenSuspended = s.sie.tokenSuspended
  mem : memWf s = true → memWf t = true

theorem DevSame.refl (d : DeviceState) : DevSame d d := ⟨rfl, rfl, rfl, rfl, rfl⟩

theorem Calm.refl (s : State) : Calm s s := ⟨rfl, rfl, .refl _, rfl, rfl, rfl, rfl, rfl, id⟩

theorem Calm.trans {s t u : State} (h : Calm s t) (g : Calm t u) : Calm s u where
  cfg := g.cfg.trans h.cfg
  hooks := g.hooks.trans h.hooks
  dev := ⟨g.dev.conn.trans h.dev.conn, g.dev.config.trans h.dev.config, g.dev.addr.trans h.dev.addr,
    g.dev.selfPowered.trans h.dev.selfPowered, g.dev.epActive.trans h.dev.epActive⟩
  ep := g.ep.trans h.ep
  bdt := g.bdt.trans h.bdt
  odd := g.odd.trans h.odd
  tokq := g.tokq.trans h.tokq
  suspended := g.suspended.trans h.suspended
  mem := g.mem ∘ h.mem

section
variable (s : State)

theorem calm_setDev {d : DeviceState} (h : DevSame s.dev d) : Calm s (setDev s d) :=
  ⟨rfl, rfl, h, rfl, rfl, rfl, rfl, rfl, id⟩

theorem calm_emit (v : OutEvent) : Calm s (emit s v) := ⟨rfl, rfl, .refl _, rfl, rfl, rfl, rfl, rfl, id⟩

theorem calm_raiseFault (r : FaultReason) : Calm s (raiseFault s r) :=
  ⟨rfl, rfl, .refl _, rfl, rfl, rfl, rfl, rfl, id⟩

theorem calm_answer (a : Answer) : Calm s (answer s a) := ⟨rfl, rfl, .refl _, rfl, rfl, rfl, rfl, rfl, id⟩

theorem calm_client (c : Client) : Calm s { s with client := c } :=
  ⟨rfl, rfl, .refl _, rfl, rfl, rfl, rfl, rfl, id⟩

theorem calm_backend (b : Backend) : Calm s { s with backend := b } :=
  ⟨rfl, rfl, .refl _, rfl, rfl, rfl, rfl, rfl, id⟩

theorem calm_lines (l : List Line) : Calm s { s with lines := l } :=
  ⟨rfl, rfl, .refl _, rfl, rfl, rfl, rfl, rfl, id⟩

theorem calm_draws (n : Nat) : Calm s { s with draws := n } :=
  ⟨rfl, rfl, .refl _, rfl, rfl, rfl, rfl, rfl, id⟩

theorem calm_backendCall (b : BackendCall) : Calm s (backendCall s b) := by
  cases b <;> exact ⟨rfl, rfl, .refl _, rfl, rfl, rfl, rfl, rfl, id⟩

theorem calm_wakeClient : Calm s (wakeClient s) where
  cfg := wakeClient_cfg s
  hooks := wakeClient_hooks s
  dev := by rw [wakeClient_dev]; exact .refl _
  ep := wakeClient_ep s
  bdt := wakeClient_bdt s
  odd := by rw [wakeClient_sie]
  tokq := by rw [wakeClient_sie]
  suspended := by rw [wakeClient_sie]
  mem := by rw [memWf, memWf, wakeClient_cfg, wakeClient_mem]; exact id

end

/-- Calm changes made one after another are calm. -/
theorem calm_foldl {α : Type} {f : State → α → State} (hf : ∀ s a, Calm s (f s a)) (l : List α) (s : State) :
    Calm s (l.foldl f s) := by
  induction l generalizing s with
  | nil => exact .refl s
  | cons a l ih => exact (hf s a).trans (ih (f s a))

/-- A store changes memory only, and keeps it canonical (R83). -/
theorem calm_store {s t : State} {a : Addr} {bs : List Byte} (h : store s a bs = .next t) : Calm s t := by
  obtain ⟨ht, -, hm⟩ := store_next h
  rw [ht] at hm ⊢
  exact ⟨rfl, rfl, .refl _, rfl, rfl, rfl, rfl, rfl, fun hw => (hm hw).1⟩

theorem calm_stagingWrites {s t : State} {ws : List (Fin 7 × Byte)} (h : stagingWrites s ws = .next t) :
    Calm s t := by
  induction ws generalizing s with
  | nil => cases h; exact .refl _
  | cons w ws ih =>
    obtain ⟨a, ha, h⟩ := andThen_next.1 h
    exact (calm_store ha).trans (ih h)

/-! ## Requests and their stages -/

/-- What halting an endpoint leaves: stall bits and the phase Stall, or neither (R238, R239). -/
abbrev HaltForm (st : Bool) (p : Phase) : Prop := st = true ∧ p = .stall ∨ st = false ∧ p = .idle

/-- What a request can do before its stage is armed: the state it leaves and the callback of its outcome (R273). -/
inductive Request (s : State) : State → Option Callback → Prop
  | calm {t : State} {cb : Option Callback} : Calm s t → cb ≠ some .commitAddress → Request s t cb
  | address {t : State} : Calm s t → s.dev.conn = .default ∨ s.dev.conn = .addressed →
      Request s t (some .commitAddress)
  | halt {e : EpId} {st : Bool} {p : Phase} : s.dev.conn = .configured → Other s.cfg e → HaltForm st p →
      Request s (epHalted s e st p) none
  | configure : s.dev.conn = .addressed ∨ s.dev.conn = .configured →
      Request s (setDev (allRebuilt s true) { s.dev with config := 1, conn := .configured }) none
  | deconfigure : s.dev.conn = .configured →
      Request s (setDev (allRebuilt s false) { s.dev with config := 0, conn := .addressed }) none

/-- The stages of EP0 that the outcomes of a request lead to (R274-R277). -/
inductive Stage (s : State) (cb : Option Callback) : State → Prop
  | stall (c : StallCause) : Stage s cb (ep0Stalled s c)
  | noData : Stage s cb (noDataStage s cb)
  | dataIn (a : Addr) {n : Nat} : n < 2 ^ 16 → Stage s cb (dataInStage s a n cb)
  | dataOut (a : Addr) (n : BitVec 16) : Stage s cb (dataOutStage s a n cb)

/-- The callback an outcome registers. -/
def outcomeCb : ReqOutcome → Option Callback
  | .dataIn _ _ cb => cb
  | .dataOut _ cb => cb
  | .noData cb => cb
  | .stall _ => none

/-- A request's result is one `Request` admits. -/
def Requests (s : State) (r : ReqRes) : Prop := ∀ o t, r = .next (o, t) → Request s t (outcomeCb o)

/-- Applying an outcome arms a stage and releases the tokens (R272). -/
theorem finish_stage {s t : State} {bm : Byte} {l : BitVec 16} {o : ReqOutcome}
    (h : finishRequest bm l (.next (o, s)) = .next t) : ∃ w, Stage s (outcomeCb o) w ∧ t = tokensFree w := by
  have hl := l.isLt
  cases o with
  | stall c =>
    rw [show (Host.Outcome.next (ReqOutcome.stall c, s) : ReqRes) = fail s c from rfl, finish_fail] at h
    cases h; exact ⟨_, .stall c, rfl⟩
  | noData cb => cases h; exact ⟨_, .noData, rfl⟩
  | dataIn a n cb =>
    cases hb : bm.getLsbD 7 with
    | true => rw [finish_dataIn hb] at h; cases h; exact ⟨_, .dataIn a (by omega), rfl⟩
    | false => rw [finish_dataIn_wrong hb] at h; cases h; exact ⟨_, .stall .s7, rfl⟩
  | dataOut a cb =>
    cases hb : bm.getLsbD 7 with
    | true => rw [finish_dataOut_wrong hb] at h; cases h; exact ⟨_, .stall .s7, rfl⟩
    | false =>
      rw [finish_dataOut hb] at h
      cases h
      by_cases hz : l = 0
      · rw [if_pos hz]; exact ⟨_, .noData, rfl⟩
      · rw [if_neg hz]; exact ⟨_, .dataOut a l, rfl⟩

section
variable {s : State}

theorem Requests.ite {c : Prop} [Decidable c] {a b : ReqRes} (ha : c → Requests s a) (hb : ¬ c → Requests s b) :
    Requests s (if c then a else b) := by
  split
  · exact ha ‹_›
  · exact hb ‹_›

/-- A failed check leaves the state as it is. -/
theorem requests_fail (c : StallCause) : Requests s (fail s c) := by
  rintro o t ⟨⟩; exact .calm (.refl s) (by simp [outcomeCb])

/-- Checks that fail with a cause, in front of the rest of a request. -/
theorem Requests.check {c : Prop} [Decidable c] {x : StallCause} {r : ReqRes} (h : ¬ c → Requests s r) :
    Requests s (if c then fail s x else r) := .ite (fun _ => requests_fail x) h

theorem requests_noData {t : State} {cb : Option Callback} (h : Request s t cb) : Requests s (noData t cb) := by
  rintro o u ⟨⟩; exact h

theorem requests_stored {a : Addr} {b : List Byte} {u : State} (hu : Calm s u) (n : Nat) :
    Requests s (andThen (store u a b) fun s' => .next (.dataIn a n none, s')) := by
  intro o t h
  obtain ⟨v, hv, h⟩ := andThen_next.1 h
  cases h; exact .calm (hu.trans (calm_store hv)) (by simp [outcomeCb])

theorem requests_replyDescriptor (x : Option ReplySource) : Requests s (replyDescriptor s x) := by
  cases x with
  | none => exact requests_fail .s5
  | some x =>
    cases x with
    | rom a n => rintro o t ⟨⟩; exact .calm (.refl s) (by simp [outcomeCb])
    | bytes b => exact requests_stored (.refl s) b.length

theorem requests_deviceFeature (x : BitVec 16) (v : Bool) : Requests s (deviceFeature s x v) :=
  .ite (fun _ => .ite (fun _ => requests_noData (.calm (calm_setDev s ⟨rfl, rfl, rfl, rfl, rfl⟩) (by simp)))
      fun _ => requests_fail _)
    fun _ => .check fun _ => requests_fail _

/-- CLEAR_FEATURE and SET_FEATURE of an endpoint other than EP0 halt it or end its halt (R317, R320). -/
theorem requests_endpointFeature {f : State → EpId → State} {st : Bool} {p : Phase} (hp : HaltForm st p)
    (hf : ∀ e, e ≠ .ep0 → f s e = epHalted s e st p) (x v : BitVec 16) :
    Requests s (match epCheck s x with
      | none => fail s .s6
      | some e => if v ≠ 0 then fail s .s5 else noData (if e = .ep0 then s else f s e) none) := by
  cases hc : epCheck s x with
  | none => exact requests_fail .s6
  | some e =>
    obtain ⟨-, -, hn, ht⟩ := epCheck_some.1 hc
    refine .check fun _ => requests_noData ?_
    split
    · exact .calm (.refl s) (by simp)
    · rename_i h0
      rw [hf e h0]
      exact .halt (ht h0).1 ⟨h0, hn⟩ hp

/-- SET_CONFIGURATION (R329, C1). -/
theorem requests_configure (v : BitVec 16) (h : s.dev.conn = .addressed ∨ s.dev.conn = .configured) :
    Request s (configure s v) none := by
  have hb : (nonControl s.cfg).foldl build s = allRebuilt s true := foldl_rebuild_eq s true
  have ht : (nonControl s.cfg).foldl teardown s = allRebuilt s false := foldl_rebuild_eq s false
  unfold configure
  rw [hb, ht]
  split
  · exact .configure h
  · split
    · exact .deconfigure ‹_›
    · exact .calm (.refl s) (by simp)

/-- Checks of the CDC hook, in front of the rest of a request (R411). -/
theorem requests_cdc {lenOk : Bool} {x : BitVec 16} {r : ReqRes} (h : Requests s r) :
    Requests s (match cdcCheck s lenOk x with
      | some c => fail s c
      | none => r) := by
  cases cdcCheck s lenOk x with
  | some c => exact requests_fail c
  | none => exact h

/-- A hook within its contract registers no address commit (R410(d)). -/
theorem hookReplyOk_cb {c : Params} {l : BitVec 16} {r : HookReply} (h : hookReplyOk c l r = true) :
    outcomeCb r.outcome ≠ some .commitAddress := by
  intro hcb
  unfold hookReplyOk at h
  cases ho : r.outcome with
  | stall x => simp [ho, outcomeCb] at hcb
  | noData cb => rw [ho] at h hcb; simp [show cb = _ from hcb, hookCbOk] at h
  | dataIn a n cb => rw [ho] at h hcb; simp [show cb = _ from hcb, hookCbOk] at h
  | dataOut a cb => rw [ho] at h hcb; simp [show cb = _ from hcb, hookCbOk] at h

/-- VENDOR_REQUEST (R410, R417). -/
theorem requests_vendor (hok : buildOk s.cfg = true) (bm : Byte) (p : Setup) :
    Requests s (if s.hooks.setup = .absent then fail s .s7
      else match s.cfg.vendorHook with
        | none => fail s .s7
        | some rows => runHookReply s bm (vendorReply rows p (devView s))) := by
  refine .check fun _ => ?_
  cases hr : s.cfg.vendorHook with
  | none => exact requests_fail .s7
  | some rows =>
    have hc := vendorReply_ok hok hr p (devView s)
    refine .check fun _ o t h => ?_
    obtain ⟨v, hv, h⟩ := andThen_next.1 h
    cases h
    exact .calm ((calm_stagingWrites hv).trans (calm_foldl calm_backendCall _ v)) (hookReplyOk_cb hc)

end

/-- Every SETUP row: checks, what `Request` admits, and one stage of EP0 (R273, R310). -/
theorem execRequest_cases {s t : State} {i : Instr} (hok : buildOk s.cfg = true) (h : execRequest i s = .next t) :
    ∃ v cb w, Request s v cb ∧ Stage v cb w ∧ t = tokensFree w := by
  have key : ∀ {bm : Byte} {l : BitVec 16} {r : ReqRes}, finishRequest bm l r = .next t → Requests s r →
      ∃ v cb w, Request s v cb ∧ Stage v cb w ∧ t = tokensFree w := by
    intro bm l r hf hr
    obtain ⟨⟨o, v⟩, rfl, h⟩ := andThen_next.1 hf
    obtain ⟨w, hw, ht⟩ := finish_stage hf
    exact ⟨v, _, w, hr o v rfl, hw, ht⟩
  have staged : ∀ b, Requests s (replyStaged s b) := fun b => requests_stored (.refl s) b.length
  cases i with
  | getStatusDevice => exact key h (.check fun _ => .check fun _ => staged _)
  | getStatusInterface => exact key h (.check fun _ => .check fun _ => .check fun _ => staged _)
  | getStatusEndpoint v x l =>
    refine key h (.check fun _ => .check fun _ => ?_)
    cases epCheck s x with
    | none => exact requests_fail _
    | some e => exact staged _
  | clearFeatureDevice => exact key h (.check fun _ => .check fun _ => requests_deviceFeature _ _)
  | clearFeatureInterface => exact key h (.check fun _ => .check fun _ => .check fun _ => requests_fail _)
  | clearFeatureEndpoint v x l =>
    exact key h (.check fun _ => .check fun _ =>
      requests_endpointFeature (.inr ⟨rfl, rfl⟩) (fun e _ => haltReset_eq s e false .idle) x v)
  | setFeatureDevice => exact key h (.check fun _ => .check fun _ => requests_deviceFeature _ _)
  | setFeatureInterface => exact key h (.check fun _ => .check fun _ => .check fun _ => requests_fail _)
  | setFeatureEndpoint v x l =>
    exact key h (.check fun _ => .check fun _ =>
      requests_endpointFeature (.inl ⟨rfl, rfl⟩)
        (fun e h0 => (if_neg h0 : stallEp s e = _).trans (haltReset_eq s e true .stall)) x v)
  | setAddress v x l =>
    refine key h (.check fun hc => .check fun _ => .check fun _ => requests_noData ?_)
    exact .address (calm_setDev s ⟨rfl, rfl, rfl, rfl, rfl⟩) (inDefAddr_iff.1 (by simpa using hc))
  | getDescriptorDevice => exact key h (.check fun _ => requests_replyDescriptor _)
  | getDescriptorConfiguration => exact key h (.check fun _ => requests_replyDescriptor _)
  | getDescriptorString => exact key h (.check fun _ => requests_replyDescriptor _)
  | getDescriptorOther => exact key h (.check fun _ => requests_fail _)
  | setDescriptor => exact key (r := fail s .s2) h (requests_fail _)
  | getConfiguration => exact key h (.check fun _ => .check fun _ => staged _)
  | setConfiguration v x l =>
    exact key h (.check fun hc => .check fun _ => .check fun _ =>
      requests_noData (requests_configure v (inAddrConf_iff.1 (by simpa using hc))))
  | getInterface => exact key h (.check fun _ => .check fun _ => .check fun _ => staged _)
  | setInterface =>
    exact key h (.check fun _ => .check fun _ => .check fun _ => .check fun _ =>
      requests_noData (.calm (.refl s) (by simp)))
  | synchFrame => exact key (r := fail s .s2) h (requests_fail _)
  | stdUnmatched => exact key (r := fail s .s2) h (requests_fail _)
  | cdcSetLineCoding =>
    refine key h (requests_cdc ?_)
    rintro o u ⟨⟩; exact .calm (.refl s) (by simp [outcomeCb])
  | cdcGetLineCoding => exact key h (requests_cdc (requests_stored (calm_backendCall s _) 7))
  | cdcSetControlLineState =>
    exact key h (requests_cdc (requests_noData (.calm (calm_backendCall s _) (by simp))))
  | cdcSendBreak => exact key h (requests_cdc (requests_noData (.calm (calm_backendCall s _) (by simp))))
  | classUnmatched => exact key (r := fail s .s7) h (requests_fail _)
  | vendorRequest bm r v x l => exact key h (requests_vendor hok bm _)
  | reservedType => exact key (r := fail s .s7) h (requests_fail _)
  | tokSetupEp0 | tokOutEp0 | tokInEp0 | tokOutEpn | tokInEpn | tokSetupEpn | evUsbrst | evError | evSoftok | evTokdne
    | evSleep | evResume | evStall | startTx | startRx | stall | clearStall | setCallback | notify | sendData
    | receiveData | isConfigured => cases h

end Sys2Proof.Machine
end

section
namespace Sys2Proof.Machine

/-! ## Completions -/

/-- The state with the token queue replaced, a completion having been taken out of it (R372). -/
def popped (s : State) (q : List Completion) : State := setSie s { s.sie with tokq := q }

section
variable (s : State) (q : List Completion)

@[simp] theorem popped_cfg : (popped s q).cfg = s.cfg := rfl
@[simp] theorem popped_dev : (popped s q).dev = s.dev := rfl
@[simp] theorem popped_hooks : (popped s q).hooks = s.hooks := rfl
@[simp] theorem popped_ep : (popped s q).ep = s.ep := rfl
@[simp] theorem popped_bdt : (popped s q).bdt = s.bdt := rfl
@[simp] theorem popped_mem : (popped s q).mem = s.mem := rfl
@[simp] theorem popped_sie : (popped s q).sie = { s.sie with tokq := q } := rfl
@[simp] theorem slot_popped (e : EpId) (d : Dir) (k : Bool) : slot (popped s q) e d k = slot s e d k := rfl

end

/-- The PIDs that go with a slot's endpoint and direction (R128, R138). -/
abbrev PidOf (e : EpId) (d : Dir) (pid : BitVec 4) : Prop :=
  d = .tx ∧ pid = pidIn ∨ d = .rx ∧ pid = pidOut ∨ d = .rx ∧ pid = pidSetup ∧ e = .ep0

/-- A completion of slot (e, d, k) is one a rule expects (R372). -/
structure Expected (s : State) (e : EpId) (d : Dir) (k : Bool) : Prop where
  onMap : e.num < s.cfg.numEp
  pid : PidOf e d (slot s e d k).pid
  completed : Completed s e d k (slot s e d k).pid
  phase : phaseExpects e (slot s e d k).pid (s.ep.get e).phase = true

/-- What serving an expected completion of slot (e, d, k) leaves, from the state `u` with the completion taken out of
the queue (R235, R236, R272, R278-R284). -/
inductive Served (u : State) : EpId → Dir → Bool → State → Prop
  | inNext {e : EpId} {k : Bool} : (u.ep.get e).phase = .dataIn →
      Served u e .tx k (packetArmed u e .tx (packetDone (u.ep.get e) .tx (slot u e .tx k).bc
        (inPhase u.cfg e (min ((u.ep.get e).remaining - (slot u e .tx k).bc.setWidth 16).toNat (mps u.cfg e)))))
  | inEnd {e : EpId} {k : Bool} {p q : Phase} : (u.ep.get e).phase = p →
      (p = .lastIn ∧ q = if e = .ep0 then .statusOut else .idle) ∨ (p = .statusIn ∧ q = .idle) →
      Served u e .tx k (finished u e (packetDone (u.ep.get e) .tx (slot u e .tx k).bc q))
  | outNext {e : EpId} {k : Bool} : e ≠ .ep0 → (u.ep.get e).phase = .dataOut →
      Served u e .rx k (packetArmed u e .rx (packetDone (u.ep.get e) .rx (slot u e .rx k).bc .dataOut))
  | outEnd {e : EpId} {k : Bool} : e ≠ .ep0 →
      Served u e .rx k (finished u e (packetDone (u.ep.get e) .rx (slot u e .rx k).bc .idle))
  | outStall {k : Bool} (c : StallCause) : (slot u .ep0 .rx k).pid = pidOut →
      Served u .ep0 .rx k (ep0Stalled (ep0OutFlipped u) c)
  | outStatus {k : Bool} : u.ep.ep0.phase = .statusOut → (slot u .ep0 .rx k).pid = pidOut →
      Served u .ep0 .rx k (ep0RxArmed (ep0OutFlipped u) { (ep0OutFlipped u).ep.ep0 with phase := .idle })
  | outEarly {k : Bool} : u.ep.ep0.phase = .dataIn ∨ u.ep.ep0.phase = .lastIn → (slot u .ep0 .rx k).pid = pidOut →
      Served u .ep0 .rx k (ep0EarlyStatus (ep0OutFlipped u))
  | outData {k : Bool} {v : State} (n : BitVec 10) : u.ep.ep0.phase = .dataOut → Calm (ep0OutFlipped u) v →
      (slot u .ep0 .rx k).pid = pidOut → Served u .ep0 .rx k (ep0RxArmed v (advance v.ep.ep0 n))
  | outDataEnd {k : Bool} {v : State} (n : BitVec 10) : u.ep.ep0.phase = .dataOut → Calm (ep0OutFlipped u) v →
      (slot u .ep0 .rx k).pid = pidOut →
      Served u .ep0 .rx k
        (callbackRan (noDataStage (setEp v .ep0 (advance v.ep.ep0 n)) none) .ep0 v.ep.ep0.callback)
  | setup {k : Bool} {p : Setup} {v w : State} {cb : Option Callback} : (slot u .ep0 .rx k).pid = pidSetup →
      Request (setupResynced u p) v cb → Stage v cb w → Served u .ep0 .rx k (tokensFree w)

/-- The row of a completion word, by its fields (R127, R138). -/
theorem decodeCompletion_word (pid ep : BitVec 4) (d : Dir) (k : Bool) :
    decodeCompletion (completionWord pid ep d k) =
      if pid = pidSetup ∧ d = .rx then some (if ep = 0 then .tokSetupEp0 k else .tokSetupEpn ep k)
      else if pid = pidOut ∧ d = .rx then some (if ep = 0 then .tokOutEp0 k else .tokOutEpn ep k)
      else if pid = pidIn ∧ d = .tx then some (if ep = 0 then .tokInEp0 k else .tokInEpn ep k)
      else none := by
  have hf : (completionWord pid ep d k).extractLsb' 8 4 = pid ∧ (completionWord pid ep d k).extractLsb' 4 4 = ep ∧
      (completionWord pid ep d k).getLsbD 3 = d.bit ∧ (completionWord pid ep d k).getLsbD 2 = k := by
    revert pid ep; cases d <;> cases k <;> decide
  obtain ⟨h1, h2, h3, h4⟩ := hf
  unfold decodeCompletion
  rw [h1, h2, h3, h4]
  cases d <;> simp [Dir.bit]

/-- The handler of an OUT completion: EP0 has its own (R236, R278). -/
def outHandler (u : State) (e : EpId) (k : Bool) : Res := if e = .ep0 then handleEp0Out u k else handleOut u e k

/-- EV_TOKDNE serves a completion of an endpoint of the map by its direction and its slot's PID (R372). -/
theorem execEvTokdne_some {s : State} {c : Completion} {q : List Completion} {e : EpId}
    (ht : takeCompletion s.sie.tokq = some (c, q)) (he : endpointOf s.cfg c.ep.toNat = some e) :
    execEvTokdne s =
      if (slot s e c.dir c.odd).pid = pidSetup ∧ c.dir = .rx then
        if e = .ep0 then serve (popped s q) .ep0 .rx c.odd pidSetup (handleSetup (popped s q) c.odd)
        else .next (raiseFault (popped s q) .f4)
      else if (slot s e c.dir c.odd).pid = pidOut ∧ c.dir = .rx then
        serve (popped s q) e .rx c.odd pidOut (outHandler (popped s q) e c.odd)
      else if (slot s e c.dir c.odd).pid = pidIn ∧ c.dir = .tx then
        serve (popped s q) e .tx c.odd pidIn (handleIn (popped s q) e c.odd)
      else .next (raiseFault (popped s q) .f4) := by
  obtain ⟨hn, hm⟩ := endpointOf_some.1 he
  have h0 : c.ep = 0 ↔ e = .ep0 :=
    ⟨fun h => EpId.num_inj (by rw [← hn, h]; rfl), fun h => BitVec.eq_of_toNat_eq (by rw [hn, h]; rfl)⟩
  have epn : ∀ d pid h, e ≠ .ep0 → serveEpn (popped s q) c.ep d c.odd pid h = serve (popped s q) e d c.odd pid (h e) :=
    fun d pid h hne => serveEpn_eq (s := popped s q) ⟨hne, hm⟩ hn d c.odd pid h
  simp only [execEvTokdne, ht, show setSie s { s.sie with tokq := q } = popped s q from rfl, completionRow, popped_cfg,
    he, slot_popped, decodeCompletion_word, h0]
  by_cases hs : (slot s e c.dir c.odd).pid = pidSetup ∧ c.dir = .rx
  · simp only [if_pos hs]
    by_cases hz : e = .ep0
    · simp only [if_pos hz]; rfl
    · simp only [if_neg hz]; rfl
  · simp only [if_neg hs]
    by_cases ho : (slot s e c.dir c.odd).pid = pidOut ∧ c.dir = .rx
    · simp only [if_pos ho]
      by_cases hz : e = .ep0
      · subst hz; rfl
      · simp only [if_neg hz, execCompletion, execTokOutEpn, epn _ _ _ hz, outHandler]
    · simp only [if_neg ho]
      by_cases hi : (slot s e c.dir c.odd).pid = pidIn ∧ c.dir = .tx
      · simp only [if_pos hi]
        by_cases hz : e = .ep0
        · subst hz; rfl
        · simp only [if_neg hz, execCompletion, execTokInEpn, epn _ _ _ hz]
      · simp only [if_neg hi]

section
variable {u t : State}

/-- The IN handler of an expected completion (R235). -/
theorem handleIn_served (hok : buildOk u.cfg = true) {e : EpId} {k : Bool}
    (hp : phaseExpects e pidIn (u.ep.get e).phase = true) (h : handleIn u e k = .next t) : Served u e .tx k t := by
  have hc : (u.ep.get e).phase = .dataIn ∨ (u.ep.get e).phase = .lastIn ∨ (u.ep.get e).phase = .statusIn := by
    unfold phaseExpects at hp
    split at hp
    · rw [if_neg (by decide), if_neg (by decide)] at hp; simpa [or_assoc] using hp
    · rw [if_pos rfl] at hp; rcases (by simpa using hp : _ ∨ _) with h | h <;> simp [h]
  rcases hc with hc | hc | hc
  · rw [handleIn_dataIn u e k hc] at h; cases h; exact .inNext hc
  · rw [handleIn_end hok e k _ _ hc (.inl ⟨rfl, rfl⟩)] at h; cases h; exact .inEnd hc (.inl ⟨rfl, rfl⟩)
  · rw [handleIn_end hok e k _ _ hc (.inr ⟨rfl, rfl⟩)] at h; cases h; exact .inEnd hc (.inr ⟨rfl, rfl⟩)

/-- The OUT handler of an endpoint other than EP0 (R236). -/
theorem handleOut_served (hok : buildOk u.cfg = true) {e : EpId} (h0 : e ≠ .ep0) {k : Bool}
    (hp : (u.ep.get e).phase = .dataOut) (h : handleOut u e k = .next t) : Served u e .rx k t := by
  unfold handleOut at h
  simp only at h
  split at h
  · rw [fire_eq (by exact hok)] at h
    simp only [setPhase, setEp, EpBank.get_set_self, EpBank.set_set] at h
    cases h
    exact .outEnd h0
  · cases h
    have : armOut (setEp u e (advance (flipDir (u.ep.get e) .rx) (slot u e .rx k).bc)) e =
        packetArmed u e .rx (packetDone (u.ep.get e) .rx (slot u e .rx k).bc .dataOut) := by cases e <;> rfl
    rw [this]
    exact .outNext h0 hp

/-- EP0's OUT data stage (R279). -/
theorem outInDataOut_served (hok : buildOk u.cfg = true) {k : Bool} {n : BitVec 10} (hp : u.ep.ep0.phase = .dataOut)
    (hpid : (slot u .ep0 .rx k).pid = pidOut) (h : outInDataOut (ep0OutFlipped u) k n = .next t) :
    Served u .ep0 .rx k t := by
  unfold outInDataOut at h
  split at h
  · cases h; rw [raiseStall_eq]; exact .outStall _ hpid
  · obtain ⟨b, -, h⟩ := andThen_next.1 h
    obtain ⟨v, hv, h⟩ := andThen_next.1 h
    have hc := calm_store hv
    simp only at h
    split at h
    · rw [fire_eq (by exact hc.cfg ▸ hok)] at h; cases h; exact .outDataEnd n hp hc hpid
    · cases h; exact .outData n hp hc hpid

/-- EP0's OUT handler (R278-R282). -/
theorem handleEp0Out_served (hok : buildOk u.cfg = true) {k : Bool} (hp : u.ep.ep0.phase ≠ .stall)
    (hpid : (slot u .ep0 .rx k).pid = pidOut) (h : handleEp0Out u k = .next t) : Served u .ep0 .rx k t := by
  have hs : setEp u .ep0 (flipDir u.ep.ep0 .rx) = ep0OutFlipped u := rfl
  unfold handleEp0Out at h
  simp only [hs] at h
  cases hc : u.ep.ep0.phase with
  | dataOut => rw [hc] at h; exact outInDataOut_served hok hc hpid h
  | statusOut =>
    rw [hc] at h
    cases h
    unfold outInStatusOut
    split
    · exact .outStatus hc hpid
    · rw [raiseStall_eq]; exact .outStall _ hpid
  | dataIn | lastIn =>
    rw [hc] at h
    cases h
    unfold outInDataIn
    split
    · exact .outEarly (by simp [hc]) hpid
    · rw [raiseStall_eq]; exact .outStall _ hpid
  | idle | statusIn => rw [hc] at h; cases h; rw [raiseStall_eq]; exact .outStall _ hpid
  | stall => exact absurd hc hp
  | throttle | complete => rw [hc] at h; cases h

/-- The SETUP handler (R272). -/
theorem handleSetup_served (hok : buildOk u.cfg = true) {k : Bool} (hp : (slot u .ep0 .rx k).pid = pidSetup)
    (h : handleSetup u k = .next t) : Served u .ep0 .rx k t := by
  obtain ⟨b, -, h⟩ := andThen_next.1 h
  unfold setupRest at h
  simp only [resyncEp0_eq] at h
  split at h
  · cases h
    rw [raiseStall_eq]
    exact .setup hp (.calm (cb := none) (.refl _) (by simp)) (.stall .s1)
  · obtain ⟨v, cb, w, hv, hw, rfl⟩ := execRequest_cases (by exact hok) h
    exact .setup hp hv hw

end

/-- EV_TOKDNE serves an expected completion and drops any other with F4 (R372, R443). -/
theorem execEvTokdne_cases {s t : State} (hok : buildOk s.cfg = true) {c : Completion} {q : List Completion}
    (ht : takeCompletion s.sie.tokq = some (c, q)) (h : execEvTokdne s = .next t) :
    (∃ e, c.ep.toNat = e.num ∧ Expected s e c.dir c.odd ∧ Served (popped s q) e c.dir c.odd t) ∨
    ((∀ e, c.ep.toNat = e.num → ¬ Expected s e c.dir c.odd) ∧ t = raiseFault (popped s q) .f4) := by
  cases he : endpointOf s.cfg c.ep.toNat with
  | none =>
    refine .inr ⟨fun e hn hx => absurd hx.onMap (by have := endpointOf_none.1 he e hn; omega), ?_⟩
    have : completionRow (popped s q) c = none := by unfold completionRow; rw [popped_cfg, he]
    simp only [execEvTokdne, ht, show setSie s { s.sie with tokq := q } = popped s q from rfl, this] at h
    cases h; rfl
  | some e =>
    obtain ⟨hn, hm⟩ := endpointOf_some.1 he
    have uniq : ∀ f : EpId, c.ep.toNat = f.num → f = e := fun f hf => EpId.num_inj (by omega)
    rw [execEvTokdne_some ht he] at h
    have serveCase : ∀ {d pid r}, c.dir = d → (slot s e d c.odd).pid = pid → PidOf e d pid →
        serve (popped s q) e d c.odd pid r = .next t →
        (phaseExpects e pid (s.ep.get e).phase = true → r = .next t → Served (popped s q) e d c.odd t) →
        (∃ e, c.ep.toNat = e.num ∧ Expected s e c.dir c.odd ∧ Served (popped s q) e c.dir c.odd t) ∨
        ((∀ e, c.ep.toNat = e.num → ¬ Expected s e c.dir c.odd) ∧ t = raiseFault (popped s q) .f4) := by
      rintro d pid r hd rfl hpid hserve hr
      rw [hd]
      by_cases hx : Completed s e d c.odd (slot s e d c.odd).pid ∧
          phaseExpects e (slot s e d c.odd).pid (s.ep.get e).phase = true
      · rw [served (s := popped s q) hx.1 hx.2] at hserve
        exact .inl ⟨e, hn, ⟨hm, hpid, hx.1, hx.2⟩, hr hx.2 hserve⟩
      · rw [not_served (s := popped s q) hx] at hserve
        refine .inr ⟨fun f hf hxf => ?_, by cases hserve; rfl⟩
        obtain rfl := uniq f hf
        exact hx ⟨hxf.completed, hxf.phase⟩
    by_cases hs : (slot s e c.dir c.odd).pid = pidSetup ∧ c.dir = .rx
    · rw [if_pos hs] at h
      obtain ⟨hpid, hd⟩ := hs
      rw [hd] at hpid
      by_cases hz : e = .ep0
      · rw [if_pos hz] at h
        subst hz
        exact serveCase hd hpid (.inr (.inr ⟨rfl, rfl, rfl⟩)) h fun _ => handleSetup_served (by exact hok) hpid
      · rw [if_neg hz] at h
        refine .inr ⟨fun f hf hxf => ?_, by cases h; rfl⟩
        obtain rfl := uniq f hf
        have := hxf.pid
        rw [hd, hpid] at this
        rcases this with ⟨hc, -⟩ | ⟨-, hc⟩ | ⟨-, -, hc⟩
        · cases hc
        · exact absurd hc (by decide)
        · exact hz hc
    · rw [if_neg hs] at h
      by_cases ho : (slot s e c.dir c.odd).pid = pidOut ∧ c.dir = .rx
      · rw [if_pos ho] at h
        obtain ⟨hpid, hd⟩ := ho
        rw [hd] at hpid
        refine serveCase hd hpid (.inr (.inl ⟨rfl, rfl⟩)) h fun hph hr => ?_
        unfold outHandler at hr
        by_cases hz : e = .ep0
        · rw [if_pos hz] at hr
          subst hz
          have hne : (s.ep.get .ep0).phase ≠ .stall := by simpa [phaseExpects, pidOut, pidSetup] using hph
          exact handleEp0Out_served (by exact hok) hne hpid hr
        · rw [if_neg hz] at hr
          have hdata : (s.ep.get e).phase = .dataOut := by simpa [phaseExpects, hz, pidOut, pidIn] using hph
          exact handleOut_served (by exact hok) hz hdata hr
      · rw [if_neg ho] at h
        by_cases hi : (slot s e c.dir c.odd).pid = pidIn ∧ c.dir = .tx
        · rw [if_pos hi] at h
          obtain ⟨hpid, hd⟩ := hi
          rw [hd] at hpid
          exact serveCase hd hpid (.inl ⟨rfl, rfl⟩) h fun hph => handleIn_served (by exact hok) hph
        · rw [if_neg hi] at h
          refine .inr ⟨fun f hf hxf => ?_, by cases h; rfl⟩
          obtain rfl := uniq f hf
          rcases hxf.pid with ⟨hd, hp⟩ | ⟨hd, hp⟩ | ⟨hd, hp, -⟩
          · exact hi ⟨hp, hd⟩
          · exact ho ⟨hp, hd⟩
          · exact hs ⟨hp, hd⟩

end Sys2Proof.Machine
end

section
namespace Sys2Proof.Machine

/-! ## The effects of a step -/

/-- The SIE may complete a transaction on slot (e, d, k), leaving `x` in it; `b` says whether it was a SETUP, which
suspends the tokens (R162-R165). -/
structure Completes (s : State) (e : EpId) (d : Dir) (k : Bool) (x : Slot) (b : Bool) : Prop where
  onMap : e.num < s.cfg.numEp
  pointer : k = (s.sie.odd.get e).get d
  owned : (slot s e d k).own = true
  stall : x.stall = (slot s e d k).stall
  free : s.sie.tokenSuspended = false
  room : s.sie.tokq.length < s.cfg.tokqDepth
  kind : (d = .tx ∧ x.pid = pidIn ∧ b = false) ∨ (d = .rx ∧ x.pid = pidOut ∧ x.stall = false ∧ b = false) ∨
    (e = .ep0 ∧ d = .rx ∧ x.pid = pidSetup ∧ b = true)

/-- The state with the token suspension set (R45). -/
def suspend (b : Bool) (s : State) : State := setSie s { s.sie with tokenSuspended := b }

/-- What one agent's step can do, INIT apart, but for changes that are calm. -/
inductive Effect (s : State) : State → Prop
  | none : Effect s s
  | busReset {t : State} : execEvUsbrst s = .next t → Effect s t
  | sleep : s.dev.conn = .configured → Effect s (setDev s { s.dev with conn := .suspended, epActive := false })
  | resume : s.dev.conn = .suspended → Effect s (setDev s { s.dev with conn := .configured, epActive := true })
  | register {i : EpId} (id : Nat) : Other s.cfg i → Effect s (setCb s i (some (.client id)))
  | start {i : EpId} {d : Dir} (buf : Addr) (len : BitVec 16) : Other s.cfg i → (s.ep.get i).enabled = true →
      dirOf s.cfg i = d → (s.ep.get i).phase = .idle → Effect s (transferBegun s i d buf len)
  | halt {i : EpId} {st : Bool} {p : Phase} : Other s.cfg i → (s.ep.get i).enabled = true → HaltForm st p →
      Effect s (epHalted s i st p)
  | transact {e : EpId} {d : Dir} {k : Bool} {x : Slot} {b : Bool} : Completes s e d k x b →
      Effect s (suspend b (complete s e d k x))
  | drop {c : Completion} {q : List Completion} : takeCompletion s.sie.tokq = some (c, q) →
      (∀ e, c.ep.toNat = e.num → ¬ Expected s e c.dir c.odd) → Effect s (popped s q)
  | serve {c : Completion} {q : List Completion} {e : EpId} {t : State} : takeCompletion s.sie.tokq = some (c, q) →
      c.ep.toNat = e.num → Expected s e c.dir c.odd → Served (popped s q) e c.dir c.odd t → Effect s t

/-- An effect with calm changes before and after it. -/
def Moves (s t : State) : Prop := ∃ a b, Calm s a ∧ Effect a b ∧ Calm b t

/-- A result goes on only in states that `Moves` admits. -/
def Leads (s : State) (r : Res) : Prop := ∀ t, r = .next t → Moves s t

section
variable {s t u : State} {r : Res}

theorem Calm.moves (h : Calm s t) : Moves s t := ⟨s, s, .refl s, .none, h⟩

theorem Effect.moves (h : Effect s t) : Moves s t := ⟨s, t, .refl s, h, .refl t⟩

theorem Moves.before (h : Calm s t) (g : Moves t u) : Moves s u := by
  obtain ⟨a, b, h1, h2, h3⟩ := g
  exact ⟨a, b, h.trans h1, h2, h3⟩

theorem Moves.after (h : Moves s t) (g : Calm t u) : Moves s u := by
  obtain ⟨a, b, h1, h2, h3⟩ := h
  exact ⟨a, b, h1, h2, h3.trans g⟩

theorem leads_next (h : Moves s t) : Leads s (.next t) := by rintro u ⟨⟩; exact h

theorem leads_calm (h : Calm s t) : Leads s (.next t) := leads_next h.moves

theorem leads_refused (x : Refusal) : Leads s (.refused x) := by rintro u ⟨⟩

theorem Leads.before (h : Calm s t) (g : Leads t r) : Leads s r := fun u hu => (g u hu).before h

theorem Leads.ite {c : Prop} [Decidable c] {a b : Res} (ha : c → Leads s a) (hb : ¬ c → Leads s b) :
    Leads s (if c then a else b) := by
  split
  · exact ha ‹_›
  · exact hb ‹_›

/-- A store, then the rest. -/
theorem leads_store {a : Addr} {bs : List Byte} {f : State → Res} (h : ∀ v, Calm s v → Leads s (f v)) :
    Leads s (andThen (store s a bs) f) := by
  intro t ht
  obtain ⟨v, hv, ht⟩ := andThen_next.1 ht
  exact h v (calm_store hv) t ht

/-! ## Client commands -/

theorem startCheck_ok {e : BitVec 8} {d : Dir} {len : BitVec 16} {buf : Addr} {i : EpId}
    (h : startCheck s e d len buf = .ok i) :
    Other s.cfg i ∧ (s.ep.get i).enabled = true ∧ dirOf s.cfg i = d ∧ (s.ep.get i).phase = .idle := by
  cases hc : clientEp s e with
  | none => rw [startCheck_none (clientEp_none.1 hc)] at h; cases h
  | some j =>
    obtain ⟨hn, ho, hen⟩ := clientEp_some.1 hc
    rw [startCheck_some ⟨hn, ho, hen⟩] at h
    by_cases hd : dirOf s.cfg j = d
    · rw [if_neg (not_not.2 hd)] at h
      by_cases hp : (s.ep.get j).phase = .idle
      · rw [if_neg (not_not.2 hp)] at h
        split at h
        · cases h
        · cases h; exact ⟨ho, hen, hd, hp⟩
      · rw [if_pos hp] at h; cases h
    · rw [if_pos hd] at h; cases h

theorem roleCheck_ok {x : Option EpId} {d : Dir} {len : BitVec 16} {buf : Addr} {i : EpId}
    (h : roleCheck s x d len buf = .ok i) :
    Other s.cfg i ∧ (s.ep.get i).enabled = true ∧ dirOf s.cfg i = d ∧ (s.ep.get i).phase = .idle := by
  cases x with
  | none => cases h
  | some e => exact startCheck_ok h

theorem leads_execStartTx (e : BitVec 8) (len : BitVec 16) (buf : BitVec 32) : Leads s (execStartTx e len buf s) := by
  unfold execStartTx
  cases hc : startCheck s e .tx len buf with
  | error r => exact leads_calm (calm_raiseFault s r)
  | ok i =>
    obtain ⟨ho, hen, hd, hp⟩ := startCheck_ok hc
    refine .ite (fun _ => leads_next ?_) fun _ => leads_refused _
    rw [beginTx_eq]
    exact (Effect.start buf len ho hen hd hp).moves

theorem leads_execStartRx (e : BitVec 8) (len : BitVec 16) (buf : BitVec 32) : Leads s (execStartRx e len buf s) := by
  unfold execStartRx
  cases hc : startCheck s e .rx len buf with
  | error r => exact leads_calm (calm_raiseFault s r)
  | ok i =>
    obtain ⟨ho, hen, hd, hp⟩ := startCheck_ok hc
    refine .ite (fun _ => leads_next ?_) fun _ => leads_refused _
    rw [beginRx_eq]
    exact (Effect.start buf len ho hen hd hp).moves

theorem leads_execSendData (buf : BitVec 32) (len : BitVec 16) : Leads s (execSendData buf len s) := by
  unfold execSendData
  cases hc : roleCheck s (epBulkIn s.cfg) .tx len buf with
  | error r => exact leads_calm (calm_raiseFault s r)
  | ok i =>
    obtain ⟨ho, hen, hd, hp⟩ := roleCheck_ok hc
    refine .ite (fun _ => leads_next (Moves.after ?_ (calm_client _ _))) fun _ => leads_refused _
    rw [beginTx_eq]
    exact (Effect.start buf len ho hen hd hp).moves

theorem leads_execReceiveData (buf : BitVec 32) (n : BitVec 16) : Leads s (execReceiveData buf n s) := by
  unfold execReceiveData
  cases hc : roleCheck s (epBulkOut s.cfg) .rx n buf with
  | error r => exact leads_calm ((calm_raiseFault s r).trans (calm_client _ _))
  | ok i =>
    obtain ⟨ho, hen, hd, hp⟩ := roleCheck_ok hc
    refine .ite (fun _ => leads_next (Moves.after ?_ (calm_client _ _))) fun _ => leads_refused _
    rw [beginRx_eq]
    exact (Effect.start buf n ho hen hd hp).moves

theorem leads_execStall (e : BitVec 8) : Leads s (execStall e s) := by
  unfold execStall
  cases hc : clientEp s e with
  | none => exact leads_calm (calm_raiseFault s _)
  | some i =>
    obtain ⟨-, ho, hen⟩ := clientEp_some.1 hc
    have : stallEp s i = epHalted s i true .stall := (if_neg ho.1).trans (haltReset_eq s i true .stall)
    exact leads_next (this ▸ (Effect.halt ho hen (.inl ⟨rfl, rfl⟩)).moves)

theorem leads_execClearStall (e : BitVec 8) : Leads s (execClearStall e s) := by
  unfold execClearStall
  cases hc : clientEp s e with
  | none => exact leads_calm (calm_raiseFault s _)
  | some i =>
    obtain ⟨-, ho, hen⟩ := clientEp_some.1 hc
    have : clearStallEp s i = epHalted s i false .idle := haltReset_eq s i false .idle
    exact leads_next (this ▸ (Effect.halt ho hen (.inr ⟨rfl, rfl⟩)).moves)

theorem leads_execSetCallback (e : BitVec 8) (id : Nat) : Leads s (execSetCallback e id s) := by
  unfold execSetCallback
  cases hc : clientEp s e with
  | none => exact leads_calm (calm_raiseFault s _)
  | some i => exact leads_next (Effect.register id (clientEp_some.1 hc).2.1).moves

theorem leads_execNotify (v : BitVec 16) : Leads s (execNotify v s) := by
  unfold execNotify
  cases epNotify s.cfg with
  | none => exact leads_calm (calm_raiseFault s _)
  | some e =>
    exact .ite (fun _ => leads_calm (calm_raiseFault s _)) fun _ =>
      .ite (fun _ => leads_calm (calm_raiseFault s _)) fun _ =>
        leads_store fun u hu => .before hu (leads_execStartTx _ _ _)

/-- Every client command (R133). -/
theorem leads_runClient (word : List Byte) : Leads s (runClient word s) := by
  unfold runClient decode
  cases hd : decodeCmd word with
  | none => exact leads_refused _
  | some i =>
    unfold decodeCmd at hd
    repeat' split at hd
    all_goals cases hd
    · exact leads_calm (calm_client s _)
    · exact leads_execStall _
    · exact leads_execClearStall _
    · exact leads_execNotify _
    · exact leads_execSetCallback _ _
    · exact leads_execSendData _ _
    · exact leads_execReceiveData _ _
    · exact leads_execStartTx _ _ _
    · exact leads_execStartRx _ _ _

/-! ## Bus events -/

theorem leads_execEvTokdne (hok : buildOk s.cfg = true) : Leads s (execEvTokdne s) := by
  intro t h
  cases ht : takeCompletion s.sie.tokq with
  | none => simp only [execEvTokdne, ht] at h; cases h; exact (Calm.refl s).moves
  | some p =>
    obtain ⟨c, q⟩ := p
    rcases execEvTokdne_cases hok ht h with ⟨e, hn, hx, hs⟩ | ⟨hx, rfl⟩
    · exact (Effect.serve ht hn hx hs).moves
    · exact (Effect.drop ht hx).moves.after (calm_raiseFault _ _)

theorem leads_execEvResume (g : Bool) : Leads s (execEvResume g s) := by
  have hc : Calm s (setDev s (clearBits bitResume s.dev)) := calm_setDev s ⟨rfl, rfl, rfl, rfl, rfl⟩
  refine .before hc (.ite (fun hs => .ite (fun _ => leads_next ?_) fun _ => leads_calm (calm_emit _ _)) fun _ =>
    leads_calm (calm_setDev _ ⟨rfl, rfl, rfl, rfl, rfl⟩))
  exact (Effect.resume hs).moves.after (calm_setDev _ ⟨rfl, rfl, rfl, rfl, rfl⟩)

theorem leads_execEvSleep : Leads s (execEvSleep s) := by
  have hc : Calm s (setDev s (clearBits bitSleep s.dev)) := calm_setDev s ⟨rfl, rfl, rfl, rfl, rfl⟩
  refine .before hc (.ite (fun hs => leads_next ?_) fun _ => leads_calm (.refl _))
  exact (Effect.sleep hs).moves.after (calm_setDev _ ⟨rfl, rfl, rfl, rfl, rfl⟩)

theorem leads_execEvSoftok : Leads s (execEvSoftok s) := by
  have hc : Calm s (setDev s (clearBits bitSoftok s.dev)) := calm_setDev s ⟨rfl, rfl, rfl, rfl, rfl⟩
  unfold execEvSoftok
  refine .before (hc.trans (calm_emit _ (.sof s.dev.frame))) ?_
  simp only []
  cases (emit (setDev s (clearBits bitSoftok s.dev)) (.sof s.dev.frame)).hooks.sof with
  | absent => exact leads_calm (.refl _)
  | installed => exact leads_calm (calm_foldl calm_emit _ _)

/-- A dispatcher step (R370, R371). -/
theorem leads_runDispatch (hok : buildOk s.cfg = true) (g : Bool) : Leads s (runDispatch g s) := by
  unfold runDispatch
  cases hd : decodeEvent (pending s) g with
  | none => exact leads_calm (.refl s)
  | some i =>
    unfold decodeEvent at hd
    repeat' split at hd
    all_goals cases hd
    · exact fun t h => (Effect.busReset h).moves
    · exact leads_execEvTokdne hok
    · exact leads_execEvResume g
    · exact leads_calm (calm_setDev s ⟨rfl, rfl, rfl, rfl, rfl⟩)
    · exact leads_execEvSoftok
    · exact leads_execEvSleep
    · exact leads_calm ((calm_emit s _).trans (calm_setDev _ ⟨rfl, rfl, rfl, rfl, rfl⟩))

/-! ## Host transactions and bus signals -/

theorem not_heldOff (h : (s.sie.tokenSuspended || queueFull s) = false) :
    s.sie.tokenSuspended = false ∧ s.sie.tokq.length < s.cfg.tokqDepth := by
  simpa [queueFull] using h

theorem not_mustNak {x : Slot} (h : ¬ mustNak s x = true) :
    s.sie.tokenSuspended = false ∧ x.own = true ∧ s.sie.tokq.length < s.cfg.tokqDepth := by
  simp [mustNak, queueFull] at h
  exact ⟨h.1.1, h.1.2, h.2⟩

theorem leads_overrun (x : Slot) : Leads s (overrun s x) :=
  leads_store fun _ hv => leads_calm (hv.trans
    ⟨rfl, rfl, ⟨rfl, rfl, rfl, rfl, rfl⟩, rfl, rfl, rfl, rfl, rfl, id⟩)

theorem calm_sieStall (s : State) : Calm s (sieStall s) :=
  ⟨rfl, rfl, ⟨rfl, rfl, rfl, rfl, rfl⟩, rfl, rfl, rfl, rfl, rfl, id⟩

/-- A completed transaction that is no SETUP leaves the tokens free (R163, R164). -/
theorem Completes.moves {e : EpId} {d : Dir} {k : Bool} {x : Slot} (h : Completes s e d k x false) :
    Moves s (complete s e d k x) := by
  have hs : suspend false (complete s e d k x) = complete s e d k x := by rw [← h.free]; rfl
  exact hs ▸ (Effect.transact h).moves

theorem Calm.completes {e : EpId} {d : Dir} {k b : Bool} {x : Slot} (hc : Calm s t) (h : Completes s e d k x b) :
    Completes t e d k x b := by
  have hs : slot t e d k = slot s e d k := by simp [slot, slots, hc.bdt]
  exact ⟨hc.cfg ▸ h.onMap, hc.odd ▸ h.pointer, hs ▸ h.owned, hs ▸ h.stall, hc.suspended ▸ h.free,
    by rw [hc.tokq, hc.cfg]; exact h.room, h.kind⟩

theorem leads_hostSetup (a : BitVec 7) (e : BitVec 4) (data : List Byte) : Leads s (hostSetup a e data s) := by
  refine .ite (fun _ => leads_calm (calm_answer s _)) fun ht => .ite (fun _ => leads_calm (calm_answer s _)) fun hh =>
    .ite (fun _ => leads_calm (calm_answer s _)) fun ho => .ite (fun _ => leads_overrun _) fun _ =>
      leads_store fun v hv => leads_next ?_
  obtain ⟨-, -, -, hn, -⟩ := tokenTo_some.1 (not_not.1 ht)
  obtain ⟨hf, hr⟩ := not_heldOff (by simpa using hh)
  have hx : Completes s .ep0 .rx s.sie.odd.ep0.rx { slot s .ep0 .rx s.sie.odd.ep0.rx with
      bc := BitVec.ofNat 10 data.length, pid := pidSetup, data01 := false } true :=
    ⟨hn, rfl, by simpa using ho, rfl, hf, hr, .inr (.inr ⟨rfl, rfl, rfl, rfl⟩)⟩
  exact ((Effect.transact (hv.completes hx)).moves.after (calm_answer _ .ack)).before hv

theorem leads_sieOut (i : EpId) (p : Bool) (data : List Byte) (hn : i.num < s.cfg.numEp) :
    Leads s (sieOut i p data s) := by
  refine .ite (fun _ => leads_calm (calm_sieStall s)) fun hst => .ite (fun _ => leads_calm (calm_answer s _))
    fun hnak => .ite (fun _ => leads_overrun _) fun _ => .ite (fun _ => leads_calm (calm_answer s _)) fun _ =>
      leads_store fun v hv => leads_next ?_
  obtain ⟨hf, ho, hr⟩ := not_mustNak hnak
  have hx : Completes s i .rx (s.sie.odd.get i).rx { slot s i .rx (s.sie.odd.get i).rx with
      bc := BitVec.ofNat 10 data.length, pid := pidOut } false :=
    ⟨hn, rfl, ho, rfl, hf, hr, .inr (.inl ⟨rfl, rfl, by simpa using hst, rfl⟩)⟩
  exact ((hv.completes hx).moves.after (calm_answer _ .ack)).before hv

theorem leads_sieIn (i : EpId) (ack : Bool) (hn : i.num < s.cfg.numEp) : Leads s (sieIn i ack s) := by
  refine .ite (fun _ => leads_calm (calm_sieStall s)) fun _ => .ite (fun _ => leads_calm (calm_answer s _))
    fun hnak t h => ?_
  obtain ⟨hf, ho, hr⟩ := not_mustNak hnak
  obtain ⟨b, -, h⟩ := andThen_next.1 h
  have hc := calm_answer s (.data (slot s i .tx (s.sie.odd.get i).tx).data01 b)
  have hx : Completes s i .tx (s.sie.odd.get i).tx { slot s i .tx (s.sie.odd.get i).tx with pid := pidIn } false :=
    ⟨hn, rfl, ho, rfl, hf, hr, .inl ⟨rfl, rfl, rfl⟩⟩
  cases h
  split
  · exact (hc.completes hx).moves.before hc
  · exact hc.moves

theorem leads_hostOut (a : BitVec 7) (e : BitVec 4) (p : Bool) (data : List Byte) : Leads s (hostOut a e p data s) := by
  unfold hostOut
  cases ht : tokenTo s a e with
  | none => exact leads_calm (calm_answer s _)
  | some i =>
    obtain ⟨-, -, -, hn, -⟩ := tokenTo_some.1 ht
    exact .ite (fun _ => leads_sieOut i p data hn) fun _ => leads_calm (calm_answer s _)

theorem leads_hostIn (a : BitVec 7) (e : BitVec 4) (ack : Bool) : Leads s (hostIn a e ack s) := by
  unfold hostIn
  cases ht : tokenTo s a e with
  | none => exact leads_calm (calm_answer s _)
  | some i =>
    obtain ⟨-, -, -, hn, -⟩ := tokenTo_some.1 ht
    exact .ite (fun _ => leads_sieIn i ack hn) fun _ => leads_calm (calm_answer s _)

/-! ## The step -/

/-- Every line but INIT (R135). -/
theorem leads_runLine (hok : buildOk s.cfg = true) {l : Line} (hl : l ≠ .init) : Leads s (runLine l s) := by
  have signal : ∀ d, DevSame s.dev d → Leads s (.next (setDev s d)) := fun d hd => leads_calm (calm_setDev s hd)
  cases l with
  | init => exact absurd rfl hl
  | hReset => exact signal _ ⟨rfl, rfl, rfl, rfl, rfl⟩
  | hSetup a e data => exact leads_hostSetup a e data
  | hOut a e p data => exact leads_hostOut a e p data
  | hIn a e ack => exact leads_hostIn a e ack
  | hSof f => exact signal _ ⟨rfl, rfl, rfl, rfl, rfl⟩
  | hIdle => exact signal _ ⟨rfl, rfl, rfl, rfl, rfl⟩
  | hResume => exact signal _ ⟨rfl, rfl, rfl, rfl, rfl⟩
  | hError x => exact .ite (fun _ => leads_refused _) fun _ => signal _ ⟨rfl, rfl, rfl, rfl, rfl⟩
  | dispatch g => exact leads_runDispatch hok g
  | client word => exact leads_runClient word
  | backend v => exact .before (calm_backend s _) (leads_execNotify v)
  | memWrite a data => exact fun t h => (calm_store h).moves

end

/-- Every step (R5, R446): INIT, or one effect between calm changes. -/
theorem step_cases {s t : State} (h : step s = .next t) :
    buildOk s.cfg = true ∧
    ((nextLine s = some .init ∧ ∃ a, Calm s a ∧ Calm (powerOnAgain a) t) ∨ (nextLine s ≠ some .init ∧ Moves s t)) := by
  unfold step runStep at h
  split at h
  · rename_i hok
    refine ⟨hok, ?_⟩
    obtain ⟨u, hu, h⟩ := andThen_next.1 h
    cases h
    have hw := calm_wakeClient u
    unfold runNext at hu
    cases hl : takeLine s s.lines with
    | none =>
      rw [hl] at hu
      refine .inr ⟨by simp [nextLine, hl], ?_⟩
      have : Leads s (if irq s then runDispatch (Config.freeGenuine s.draws) { s with draws := s.draws + 1 }
          else .next s) :=
        .ite (fun _ => .before (calm_draws s _) (leads_runDispatch (by exact hok) _)) fun _ => leads_calm (.refl s)
      exact (this u hu).after hw
    | some p =>
      obtain ⟨l, rest⟩ := p
      rw [hl] at hu
      have hc := calm_lines s rest
      by_cases hi : l = .init
      · subst hi
        cases hu
        exact .inl ⟨by simp [nextLine, hl], _, hc, hw⟩
      · exact .inr ⟨by simpa [nextLine, hl] using hi, ((leads_runLine (by exact hok) hi u hu).before hc).after hw⟩
  · cases h

end Sys2Proof.Machine
end

section
/-! PROOFS. The configuration is constant, and so are the hooks, the self-powered flag and the descriptor bytes
(R35, R51, R83, R200). -/

namespace Sys2Proof.Machine

/-- The parameters, the hooks and the self-powered flag are the same, and memory stays canonical. -/
structure Fixed (s t : State) : Prop where
  cfg : t.cfg = s.cfg
  hooks : t.hooks = s.hooks
  selfPowered : t.dev.selfPowered = s.dev.selfPowered
  mem : memWf s = true → memWf t = true

section
variable {s t u : State}

theorem Fixed.trans (h : Fixed s t) (g : Fixed t u) : Fixed s u :=
  ⟨g.cfg.trans h.cfg, g.hooks.trans h.hooks, g.selfPowered.trans h.selfPowered, g.mem ∘ h.mem⟩

theorem Calm.fixed (h : Calm s t) : Fixed s t := ⟨h.cfg, h.hooks, h.dev.selfPowered, h.mem⟩

theorem callbackRan_fixed (s : State) (e : EpId) (cb : Option Callback) : Fixed s (callbackRan s e cb) := by
  cases cb with
  | none => exact ⟨rfl, rfl, rfl, id⟩
  | some c =>
    cases c with
    | commitAddress | client | vendor => exact ⟨rfl, rfl, rfl, id⟩
    | applyLineCoding => simp only [callbackRan]; split <;> exact ⟨rfl, rfl, rfl, id⟩

theorem Request.fixed {cb : Option Callback} (h : Request s t cb) : Fixed s t := by
  cases h with
  | calm h => exact h.fixed
  | address h => exact h.fixed
  | halt | configure | deconfigure => exact ⟨rfl, rfl, rfl, id⟩

theorem Stage.fixed {cb : Option Callback} (h : Stage s cb t) : Fixed s t := by
  cases h <;> exact ⟨rfl, rfl, rfl, id⟩

theorem Fixed.ran (h : Fixed s t) (e : EpId) (cb : Option Callback) : Fixed s (callbackRan t e cb) :=
  h.trans (callbackRan_fixed t e cb)

theorem Served.fixed {e : EpId} {d : Dir} {k : Bool} (h : Served s e d k t) : Fixed s t := by
  have flip : Fixed s (ep0OutFlipped s) := ⟨rfl, rfl, rfl, id⟩
  have resync : ∀ p, Fixed s (setupResynced s p) := fun p => ⟨rfl, rfl, rfl, id⟩
  cases h with
  | inNext | outNext | outStall | outStatus | outEarly => exact ⟨rfl, rfl, rfl, id⟩
  | inEnd | outEnd => refine Fixed.ran ?_ _ _; exact ⟨rfl, rfl, rfl, id⟩
  | outData n _ hc => exact (flip.trans hc.fixed).trans ⟨rfl, rfl, rfl, id⟩
  | outDataEnd n _ hc => refine Fixed.ran ((flip.trans hc.fixed).trans ?_) _ _; exact ⟨rfl, rfl, rfl, id⟩
  | setup _ hr hs => exact (resync _).trans (hr.fixed.trans (hs.fixed.trans ⟨rfl, rfl, rfl, id⟩))

theorem Effect.fixed (h : Effect s t) : Fixed s t := by
  cases h with
  | none | sleep | resume | register | start | halt | transact | drop => exact ⟨rfl, rfl, rfl, id⟩
  | busReset h => cases h; exact ⟨rfl, rfl, rfl, id⟩
  | @serve c q _ _ _ _ _ h => exact (⟨rfl, rfl, rfl, id⟩ : Fixed s (popped s q)).trans h.fixed

theorem Moves.fixed (h : Moves s t) : Fixed s t := by
  obtain ⟨a, b, h1, h2, h3⟩ := h
  exact h1.fixed.trans (h2.fixed.trans h3.fixed)

/-- Every step keeps the parameters and the canonical form of memory (R6, R83). -/
theorem step_cfg_memWf (h : step s = .next t) : t.cfg = s.cfg ∧ (memWf s = true → memWf t = true) := by
  obtain ⟨-, ⟨-, a, ha, ht⟩ | ⟨-, hm⟩⟩ := step_cases h
  · exact ⟨ht.cfg.trans ha.cfg, ht.mem ∘ (id : memWf a = true → memWf (powerOnAgain a) = true) ∘ ha.mem⟩
  · exact ⟨hm.fixed.cfg, hm.fixed.mem⟩

end

/-! ## Descriptor bytes -/

/-- Canonical memory lists no descriptor address (R83). -/
theorem listed_rom {c : Params} {m : List (Nat × Byte)} {lo a : Nat} (h : memWfFrom c lo m = true)
    (ha : romByte c a ≠ none) : listed m a = none := by
  induction m generalizing lo with
  | nil => rfl
  | cons p m ih =>
    obtain ⟨x, b⟩ := p
    simp only [memWfFrom, Bool.and_eq_true, Option.isNone_iff_eq_none] at h
    obtain ⟨⟨-, hx⟩, hm⟩ := h
    unfold listed
    rw [if_neg (by rintro rfl; exact ha hx)]
    exact ih hm

/-- In canonical memory a descriptor address reads as its byte (R200). -/
theorem peek_rom {s : State} (hw : memWf s = true) {a : Nat} {b : Byte} (h : romByte s.cfg a = some b) :
    peek s a = b := by
  rw [peek, listed_rom hw (by simp [h]), unlisted, h]; rfl

theorem regionByte_at (base : Addr) (bs : List Byte) (i : Nat) : regionByte base bs (base.toNat + i) = bs[i]? := by
  simp [regionByte]

/-- A region has no byte at an address of a region apart from it. -/
theorem regionByte_apart {b b' : Addr} {bs bs' : List Byte} {i : Nat} (hi : i < bs'.length)
    (h : apart ⟨b.toNat, bs.length⟩ ⟨b'.toNat, bs'.length⟩ = true) : regionByte b bs (b'.toNat + i) = none := by
  simp only [apart, decide_eq_true_eq] at h
  unfold regionByte
  split
  · exact List.getElem?_eq_none (by omega)
  · rfl

/-- The three descriptor regions are pairwise apart (R81). -/
theorem desc_apart {c : Params} (h : buildOk c = true) :
    apart ⟨c.devDescAddr.toNat, c.deviceDesc.length⟩ ⟨c.cfgDescAddr.toNat, c.configDesc.length⟩ = true ∧
    apart ⟨c.devDescAddr.toNat, c.deviceDesc.length⟩ ⟨c.langidAddr.toNat, c.langidDesc.length⟩ = true ∧
    apart ⟨c.cfgDescAddr.toNat, c.configDesc.length⟩ ⟨c.langidAddr.toNat, c.langidDesc.length⟩ = true := by
  have hp := buildOk_placement h
  simp only [placementOk, Bool.and_eq_true] at hp
  simpa [pairwiseApart, descRegions, and_assoc] using hp.2

theorem romByte_device (c : Params) {i : Nat} (hi : i < c.deviceDesc.length) :
    romByte c (c.devDescAddr.toNat + i) = c.deviceDesc[i]? := by
  rw [romByte, regionByte_at, List.getElem?_eq_getElem hi]

theorem romByte_config {c : Params} (h : buildOk c = true) {i : Nat} (hi : i < c.configDesc.length) :
    romByte c (c.cfgDescAddr.toNat + i) = c.configDesc[i]? := by
  rw [romByte, regionByte_apart hi (desc_apart h).1, regionByte_at, List.getElem?_eq_getElem hi]

theorem romByte_langid {c : Params} (h : buildOk c = true) {i : Nat} (hi : i < c.langidDesc.length) :
    romByte c (c.langidAddr.toNat + i) = c.langidDesc[i]? := by
  obtain ⟨-, hd, hc⟩ := desc_apart h
  rw [romByte, regionByte_apart hi hd, regionByte_apart hi hc, regionByte_at]

/-- Settles O47: no effect of a step writes a parameter, and canonical memory lists no descriptor address, so that one
reads as its ROM byte. -/
theorem configurationIsConstant : Obligations.ConfigurationIsConstant := by
  intro s t hw h
  obtain ⟨hcfg, hmem⟩ := step_cfg_memWf h
  obtain ⟨hok, hcases⟩ := step_cases h
  have reads : ∀ {a : Nat} {l : List Byte} {i : Nat}, i < l.length → romByte s.cfg a = l[i]? →
      some (peek t a) = l[i]? := by
    intro a l i hi hr
    rw [List.getElem?_eq_getElem hi] at hr ⊢
    rw [peek_rom (hmem hw) (hcfg ▸ hr)]
  refine ⟨hcfg, fun hn => ?_, fun i hi => reads hi (romByte_device s.cfg hi),
    fun i hi => reads hi (romByte_config hok hi), fun i hi => reads hi (romByte_langid hok hi)⟩
  obtain ⟨hi, -⟩ | ⟨-, hm⟩ := hcases
  · exact absurd hi hn
  · exact ⟨hm.fixed.hooks, hm.fixed.selfPowered⟩

end Sys2Proof.Machine
end

section
/-! PROOFS. Every step keeps the device and endpoint-enable invariants (R36, R57). -/

namespace Sys2Proof.Machine

/-- The device and endpoint-enable invariants together. -/
structure DevOk (s : State) : Prop where
  dev : DevInv s
  enabled : EnabledInv s

/-- The connection states in which an address commit may be registered (R321). -/
abbrev MayCommit (s : State) : Prop := s.dev.conn = .default ∨ s.dev.conn = .addressed

section
variable {s t : State}

/-- The invariants read the device registers through `DevSame`, and of an endpoint whether it is enabled and whether an
address commit is registered on it. -/
theorem DevOk.congr (h : DevOk s) (hc : t.cfg = s.cfg) (hd : DevSame s.dev t.dev)
    (he : ∀ e, (t.ep.get e).enabled = (s.ep.get e).enabled)
    (h0 : t.ep.ep0.callback = some .commitAddress → MayCommit s)
    (hn : ∀ e, e ≠ .ep0 → (t.ep.get e).callback ≠ some .commitAddress) : DevOk t := by
  obtain ⟨⟨config, config01, default, addressed, active, -, -⟩, ⟨each, some⟩⟩ := h
  rw [← hd.config] at config config01 each some
  rw [← hd.conn] at config default addressed active
  rw [← hd.addr] at default addressed
  rw [← hd.epActive] at active
  refine ⟨⟨config, config01, default, addressed, active, fun h => by rw [hd.conn]; exact h0 h, hn⟩, ?_, ?_⟩
  · simpa only [he, hc] using each
  · simpa only [he] using some

theorem DevOk.calm (h : DevOk s) (hc : Calm s t) : DevOk t :=
  h.congr hc.cfg hc.dev (fun e => by rw [hc.ep]) (fun hx => h.dev.commit0 (hc.ep ▸ hx))
    fun e he => by rw [hc.ep]; exact h.dev.commitN e he

/-- One endpoint's record replaced: still enabled or not as before, and no address commit but on EP0 while one may be
registered. -/
theorem DevOk.set (h : DevOk s) {e : EpId} {x : EndpointState} (hc : t.cfg = s.cfg) (hd : t.dev = s.dev)
    (hep : t.ep = s.ep.set e x) (hen : x.enabled = (s.ep.get e).enabled)
    (hcb : x.callback = some .commitAddress → e = .ep0 ∧ MayCommit s) : DevOk t := by
  have hget : ∀ f, t.ep.get f = if f = e then x else s.ep.get f := fun f => by rw [hep, EpBank.get_set]
  refine h.congr hc (hd ▸ .refl _) (fun f => ?_) (fun hx => ?_) fun f hf hx => ?_
  · rw [hget]; split
    · rename_i hfe; rw [hfe, hen]
    · rfl
  · change (t.ep.get .ep0).callback = _ at hx
    rw [hget] at hx
    split at hx
    · exact (hcb hx).2
    · exact h.dev.commit0 hx
  · rw [hget] at hx
    split at hx
    · rename_i hfe; exact hf (hfe.trans (hcb hx).1)
    · exact h.dev.commitN f hf hx

/-- A registered address commit is on EP0, while one may be registered. -/
theorem DevOk.commit (h : DevOk s) {e : EpId} (hx : (s.ep.get e).callback = some .commitAddress) :
    e = .ep0 ∧ MayCommit s := by
  by_cases he : e = .ep0
  · subst he; exact ⟨rfl, h.dev.commit0 hx⟩
  · exact absurd hx (h.dev.commitN e he)

/-- One endpoint's record replaced, its callback kept or taken out. -/
theorem DevOk.set_keep (h : DevOk s) {e : EpId} {x : EndpointState} (hc : t.cfg = s.cfg) (hd : t.dev = s.dev)
    (hep : t.ep = s.ep.set e x) (hen : x.enabled = (s.ep.get e).enabled)
    (hcb : x.callback = none ∨ x.callback = (s.ep.get e).callback) : DevOk t :=
  h.set hc hd hep hen fun hx => by
    rcases hcb with hcb | hcb
    · rw [hcb] at hx; cases hx
    · exact h.commit (hcb ▸ hx)

/-- A callback other than the address commit changes nothing an invariant reads (R237, R413). -/
theorem callbackRan_calm (s : State) (e : EpId) {cb : Option Callback} (h : cb ≠ some .commitAddress) :
    Calm s (callbackRan s e cb) := by
  cases cb with
  | none => exact .refl s
  | some c =>
    cases c with
    | commitAddress => exact absurd rfl h
    | client | vendor => exact ⟨rfl, rfl, .refl _, rfl, rfl, rfl, rfl, rfl, id⟩
    | applyLineCoding =>
      simp only [callbackRan]
      split
      · exact ⟨rfl, rfl, .refl _, rfl, rfl, rfl, rfl, rfl, id⟩
      · exact .refl s

/-- Where an address commit may run it leaves Default with address 0, or Addressed with another one (R322). -/
theorem commitRan_conn (hm : MayCommit s) (e : EpId) :
    let d := (callbackRan s e (some .commitAddress)).dev
    d.conn = .default ∧ d.addr = 0 ∨ d.conn = .addressed ∧ d.addr ≠ 0 := by
  by_cases hp : s.dev.pendingAddr = 0
  · exact .inl ⟨by rcases hm with hm | hm <;> simp [callbackRan, hm, hp], hp⟩
  · have hn : s.dev.pendingAddr ≠ 0#7 := hp
    exact .inr ⟨by rcases hm with hm | hm <;> simp [callbackRan, hm, hn], hp⟩

/-- The address commit keeps R36 in the states in which it may run (R322). -/
theorem DevOk.commitRan (h : DevOk s) (hm : MayCommit s) (e : EpId) :
    DevOk (callbackRan s e (some .commitAddress)) := by
  have hconfig : (callbackRan s e (some .commitAddress)).dev.config ≠ 1 :=
    show s.dev.config ≠ 1 by rw [Ne, h.dev.config]; rcases hm with hm | hm <;> simp [hm]
  have hactive : (callbackRan s e (some .commitAddress)).dev.epActive ≠ false :=
    show s.dev.epActive ≠ false by rw [Ne, h.dev.active]; rcases hm with hm | hm <;> simp [hm]
  refine ⟨?_, h.enabled.each, h.enabled.some⟩
  rcases commitRan_conn hm e with ⟨hc, ha⟩ | ⟨hc, ha⟩
  · exact ⟨by simpa [hc] using hconfig, h.dev.config01, fun _ => ha, by simp [hc], by simpa [hc] using hactive,
      fun _ => .inl hc, h.dev.commitN⟩
  · exact ⟨by simpa [hc] using hconfig, h.dev.config01, by simp [hc], fun _ => ha, by simpa [hc] using hactive,
      fun _ => .inr hc, h.dev.commitN⟩

theorem DevOk.ran (h : DevOk s) (e : EpId) {cb : Option Callback} (hcb : cb = some .commitAddress → MayCommit s) :
    DevOk (callbackRan s e cb) := by
  by_cases hx : cb = some .commitAddress
  · subst hx; exact h.commitRan (hcb rfl) e
  · exact h.calm (callbackRan_calm s e hx)

theorem DevOk.finished (h : DevOk s) {e : EpId} {x : EndpointState} (hen : x.enabled = (s.ep.get e).enabled)
    (hcb : x.callback = (s.ep.get e).callback) : DevOk (finished s e x) :=
  (h.set_keep (t := { s with ep := s.ep.set e { x with callback := none } }) (x := { x with callback := none })
    rfl rfl rfl hen (.inl rfl)).ran e fun hx => (h.commit (hcb ▸ hx)).2

/-- The other endpoints built or torn down, with the registers that go with it (R329, R330). -/
theorem DevOk.rebuilt (h : DevOk s) (hok : buildOk s.cfg = true) (hcb : s.ep.ep0.callback ≠ some .commitAddress)
    (hs : s.dev.conn = .addressed ∨ s.dev.conn = .configured) {b : Bool} {d : DeviceState}
    (hd : d.conn = if b then .configured else .addressed) (hc : d.config = if b then 1 else 0)
    (ha : d.addr = s.dev.addr) (hact : d.epActive = s.dev.epActive) : DevOk (setDev (allRebuilt s b) d) := by
  have hget : ∀ e, (setDev (allRebuilt s b) d).ep.get e =
      if Other s.cfg e then epRebuilt (s.ep.get e) b else s.ep.get e := fun e => EpBank.get_tabulate _ e
  have haddr : s.dev.addr ≠ 0 := h.dev.addressed (by tauto)
  have hactive : s.dev.epActive ≠ false := fun hx => by
    have := h.dev.active.1 hx; rw [this] at hs; simp at hs
  constructor
  · refine ⟨?_, ?_, ?_, fun _ => ?_, ?_, fun hx => absurd hx hcb, fun e he hx => ?_⟩
    · rw [setDev_dev, hc, hd]; cases b <;> simp
    · rw [setDev_dev, hc]; cases b <;> simp
    · rw [setDev_dev, hd]; cases b <;> simp
    · rw [setDev_dev, ha]; exact haddr
    · rw [setDev_dev, hact, hd]; cases b <;> simp [hactive]
    · rw [hget] at hx
      split at hx
      · cases hx
      · exact h.dev.commitN e he hx
  · refine enabledInv_of_each hok fun e he => ?_
    rw [hget]
    by_cases hn : e.num < s.cfg.numEp
    · rw [if_pos ⟨he, hn⟩, setDev_dev, hc]
      show b = true ↔ _ ∧ e.num < s.cfg.numEp
      cases b <;> simp [hn]
    · rw [if_neg (fun hx => hn hx.2)]
      have := (h.enabled.each e he).1
      show _ ↔ _ ∧ e.num < s.cfg.numEp
      tauto

theorem DevOk.request (h : DevOk s) (hok : buildOk s.cfg = true) (h0 : s.ep.ep0.callback ≠ some .commitAddress)
    {cb : Option Callback} (hr : Request s t cb) : DevOk t ∧ (cb = some .commitAddress → MayCommit t) := by
  cases hr with
  | calm hc hcb => exact ⟨h.calm hc, fun hx => absurd hx hcb⟩
  | address hc hm => exact ⟨h.calm hc, fun _ => by rw [MayCommit, hc.dev.conn]; exact hm⟩
  | halt hcf ho hp => exact ⟨h.set_keep rfl rfl rfl rfl (.inl rfl), nofun⟩
  | configure hs => exact ⟨h.rebuilt hok h0 hs rfl rfl rfl rfl, nofun⟩
  | deconfigure hs => exact ⟨h.rebuilt hok h0 (.inr hs) rfl rfl rfl rfl, nofun⟩

theorem DevOk.stage (h : DevOk s) {cb : Option Callback} (hcb : cb = some .commitAddress → MayCommit s)
    (hs : Stage s cb t) : DevOk t := by
  cases hs with
  | stall => exact h.set_keep (e := .ep0) rfl rfl rfl rfl (.inl rfl)
  | noData | dataIn | dataOut => exact h.set (e := .ep0) rfl rfl rfl rfl fun hx => ⟨rfl, hcb hx⟩

theorem DevOk.served (h : DevOk s) (hok : buildOk s.cfg = true) {e : EpId} {d : Dir} {k : Bool}
    (hs : Served s e d k t) : DevOk t := by
  have flip : DevOk (ep0OutFlipped s) := h.set_keep (e := .ep0) rfl rfl rfl rfl (.inr rfl)
  cases hs with
  | inNext | outNext => exact h.set_keep rfl rfl rfl rfl (.inr rfl)
  | inEnd | outEnd => exact h.finished rfl rfl
  | outStall => exact flip.set_keep (e := .ep0) rfl rfl rfl rfl (.inl rfl)
  | outStatus => exact flip.set_keep (e := .ep0) rfl rfl rfl rfl (.inr rfl)
  | outEarly => exact flip.set_keep (e := .ep0) rfl rfl rfl rfl (.inl rfl)
  | outData n _ hc => exact (flip.calm hc).set_keep (e := .ep0) rfl rfl rfl rfl (.inr rfl)
  | @outDataEnd _ v n _ hc =>
    have hv := flip.calm hc
    have hw : DevOk (noDataStage (setEp v .ep0 (advance v.ep.ep0 n)) none) :=
      hv.set_keep (e := .ep0) rfl rfl rfl rfl (.inl rfl)
    exact hw.ran .ep0 fun hx => (hv.commit (e := .ep0) hx).2
  | @setup _ p v w cb _ hr hst =>
    have hu : DevOk (setupResynced s p) := h.set_keep (e := .ep0) rfl rfl rfl rfl (.inl rfl)
    obtain ⟨hv, hcb⟩ := hu.request (by exact hok) nofun hr
    exact (hv.stage hcb hst).congr rfl (.refl _) (fun _ => rfl) (hv.stage hcb hst).dev.commit0
      (hv.stage hcb hst).dev.commitN

/-- The registers and endpoint records that INIT and a bus reset leave (R373, R480). -/
theorem devOk_fresh (hep : t.ep = EpBank.tabulate EndpointState.powerOn)
    (hconn : t.dev.conn = .attached ∨ t.dev.conn = .default) (hconfig : t.dev.config = 0) (haddr : t.dev.addr = 0)
    (hactive : t.dev.epActive = true) : DevOk t := by
  have hget : ∀ e, t.ep.get e = EndpointState.powerOn e := fun e => by rw [hep, EpBank.get_tabulate]
  have hoff : ∀ e, e ≠ .ep0 → (t.ep.get e).enabled = false := fun e he => by simp [hget, EndpointState.powerOn, he]
  have hcb : ∀ e, (t.ep.get e).callback ≠ some .commitAddress := fun e => by simp [hget, EndpointState.powerOn]
  constructor
  · refine ⟨?_, .inl hconfig, fun _ => haddr, ?_, ?_, fun hx => absurd hx (hcb .ep0), fun e _ => hcb e⟩ <;>
      rcases hconn with hc | hc <;> simp [hc, hconfig, hactive]
  · refine ⟨fun e he => ?_, ?_⟩
    · simp [hoff e he, hconfig]
    · simp only [hconfig, show (0 : BitVec 8) ≠ 1 by decide, iff_false]
      rintro ⟨e, he, hx⟩
      rw [hoff e he] at hx; cases hx

theorem devOk_powerOnAgain (s : State) : DevOk (powerOnAgain s) := devOk_fresh rfl (.inl rfl) rfl rfl rfl

/-- Only the configured device sleeps (R377). -/
theorem DevOk.sleep (h : DevOk s) (hc : s.dev.conn = .configured) :
    DevOk (setDev s { s.dev with conn := .suspended, epActive := false }) := by
  refine ⟨⟨?_, h.dev.config01, nofun, fun _ => h.dev.addressed (.inr (.inl hc)), by simp, fun hx => ?_, h.dev.commitN⟩,
    h.enabled.each, h.enabled.some⟩
  · simpa using h.dev.config.2 (.inl hc)
  · have := h.dev.commit0 hx; simp [hc] at this

/-- Resuming goes back to Configured (R374). -/
theorem DevOk.resume (h : DevOk s) (hc : s.dev.conn = .suspended) :
    DevOk (setDev s { s.dev with conn := .configured, epActive := true }) := by
  refine ⟨⟨?_, h.dev.config01, nofun, fun _ => h.dev.addressed (.inr (.inr hc)), by simp, fun hx => ?_, h.dev.commitN⟩,
    h.enabled.each, h.enabled.some⟩
  · simpa using h.dev.config.2 (.inr hc)
  · have := h.dev.commit0 hx; simp [hc] at this

theorem DevOk.effect (h : DevOk s) (hok : buildOk s.cfg = true) (he : Effect s t) : DevOk t := by
  cases he with
  | none => exact h
  | busReset ht => cases ht; exact devOk_fresh rfl (.inr rfl) rfl rfl rfl
  | sleep hc => exact h.sleep hc
  | resume hc => exact h.resume hc
  | register id => exact h.set rfl rfl rfl rfl nofun
  | start => exact h.set_keep rfl rfl rfl rfl (.inr rfl)
  | halt => exact h.set_keep rfl rfl rfl rfl (.inl rfl)
  | transact | drop =>
    exact h.congr rfl (.refl _) (fun _ => rfl) h.dev.commit0 h.dev.commitN
  | @serve c q _ _ _ _ _ hs =>
    have hp : DevOk (popped s q) := h.congr rfl (.refl _) (fun _ => rfl) h.dev.commit0 h.dev.commitN
    exact hp.served hok hs

end

/-- Settles O51: `DevOk` is kept by every effect of a step; an address commit is registered only where it may run. -/
theorem deviceInvariantsKept : Obligations.DeviceInvariantsKept := by
  intro s t hd he h
  obtain ⟨hok, ⟨-, a, -, ht⟩ | ⟨-, a, b, ha, hab, hb⟩⟩ := step_cases h
  · have hx := (devOk_powerOnAgain a).calm ht
    exact ⟨hx.dev, hx.enabled⟩
  · have hx := ((DevOk.calm ⟨hd, he⟩ ha).effect (ha.cfg ▸ hok) hab).calm hb
    exact ⟨hx.dev, hx.enabled⟩

end Sys2Proof.Machine
end

section
/-! PROOFS. The slot invariants (R44, R31, R60) lane by lane: a lane is one endpoint in one direction, with the block's
selector, the SIE's pointer, the two slots and the queued completions. A lane is free, armed or done, and each effect
of a step moves the lanes of one endpoint. -/

namespace Sys2Proof.Machine

/-! ## Lanes -/

/-- One endpoint in one direction. -/
structure Lane where
  sel : Bool
  ptr : Bool
  slots : HalfPair Slot
  queue : List Completion

/-- The queued completions of (e, d), oldest first. -/
def queueOf (q : List Completion) (e : EpId) (d : Dir) : List Completion := q.filter fun c => ofEp c e && c.dir == d

/-- The lane of (e, d). -/
def lane (s : State) (e : EpId) (d : Dir) : Lane where
  sel := (s.ep.get e).odd.get d
  ptr := (s.sie.odd.get e).get d
  slots := slots s e d
  queue := queueOf s.sie.tokq e d

/-- The block holds both slots, nothing is queued and the SIE points at the selector's slot. -/
structure Lane.Free (l : Lane) : Prop where
  own : ∀ k, (l.slots.get k).own = false
  queue : l.queue = []
  ptr : l.ptr = l.sel

/-- The SIE owns the selector's slot. -/
structure Lane.Armed (l : Lane) : Prop where
  own : ∀ k, (l.slots.get k).own = true ↔ k = l.sel
  queue : l.queue = []
  ptr : l.ptr = l.sel

/-- The selector's slot is completed and its completion queued. -/
structure Lane.Done (e : EpId) (d : Dir) (p : Phase) (l : Lane) : Prop where
  own : ∀ k, (l.slots.get k).own = false
  queue : ∃ c, l.queue = [c] ∧ c.odd = l.sel
  ptr : l.ptr = !l.sel
  pid : PidOf e d (l.slots.get l.sel).pid
  out : (l.slots.get l.sel).pid = pidOut → p ≠ .stall

/-- The stall bits of a lane: set exactly in a halted endpoint's own directions (R60). -/
abbrev StallBits (c : Params) (e : EpId) (d : Dir) (p : Phase) (l : Lane) : Prop :=
  ∀ k, (l.slots.get k).stall = true ↔ p = .stall ∧ (e = .ep0 ∨ dirOf c e = d)

/-- A lane is free, or in a phase that serves it armed or done. -/
structure LaneOk (c : Params) (e : EpId) (d : Dir) (p : Phase) (l : Lane) : Prop where
  stall : StallBits c e d p l
  state : l.Free ∨ ActivePhase c e d p ∧ (l.Armed ∨ l.Done e d p ∧ e.num < c.numEp)

/-- An endpoint's record by itself: EP0 is enabled, the phase is one of the endpoint's, a disabled endpoint is Idle
(R31, R57). -/
structure RecordOk (c : Params) (e : EpId) (x : EndpointState) : Prop where
  on : e = .ep0 → x.enabled = true
  legal : LegalPhase c e x.phase
  off : x.enabled = false → x.phase = .idle

/-- The slot invariants of one endpoint. -/
structure EpOk (s : State) (e : EpId) : Prop where
  record : RecordOk s.cfg e (s.ep.get e)
  lane : ∀ d, LaneOk s.cfg e d (s.ep.get e).phase (lane s e d)

/-- The slot invariants of the queue: its depth, and a SETUP of EP0 last in it with the tokens suspended (R162). -/
structure QueueOk (s : State) : Prop where
  depth : s.sie.tokq.length ≤ s.cfg.tokqDepth
  setupLast : ∀ q c r, s.sie.tokq = q ++ c :: r → c.ep.toNat = 0 → c.dir = .rx →
    (slot s .ep0 .rx c.odd).pid = pidSetup → r = [] ∧ s.sie.tokenSuspended = true

theorem mem_queueOf {q : List Completion} {e : EpId} {d : Dir} {c : Completion} :
    c ∈ queueOf q e d ↔ c ∈ q ∧ c.ep.toNat = e.num ∧ c.dir = d := by
  simp [queueOf, ofEp]

theorem queued_eq (s : State) (e : EpId) (d : Dir) : queued s e d = (lane s e d).queue.length := rfl

theorem slot_eq (s : State) (e : EpId) (d : Dir) (k : Bool) : slot s e d k = (lane s e d).slots.get k := rfl

/-- A queued completion is of an endpoint's lane. -/
theorem mem_lane {s : State} {c : Completion} (h : c ∈ s.sie.tokq) :
    ∃ e : EpId, c.ep.toNat = e.num ∧ c ∈ (lane s e c.dir).queue := by
  obtain ⟨e, -, he⟩ := EpId.ofNat?_of_lt (n := c.ep.toNat) c.ep.isLt
  exact ⟨e, he.symm, mem_queueOf.2 ⟨h, he.symm, rfl⟩⟩

/-- A done lane expects its completion (R372). -/
theorem pidExpected_iff {s : State} {e : EpId} {d : Dir} {k : Bool} :
    PidExpected s e d k ↔
      PidOf e d (slot s e d k).pid ∧ ((slot s e d k).pid = pidOut → (s.ep.get e).phase ≠ .stall) := by
  cases d with
  | tx =>
    constructor
    · rintro ⟨h, -⟩; exact ⟨.inl ⟨rfl, h rfl⟩, fun hx => by rw [h rfl] at hx; cases hx⟩
    · rintro ⟨⟨-, h⟩ | ⟨h, -⟩ | ⟨h, -⟩, -⟩
      · exact ⟨fun _ => h, nofun⟩
      all_goals cases h
  | rx =>
    constructor
    · rintro ⟨-, h⟩
      rcases h rfl with ⟨h, h0⟩ | ⟨h, hp⟩
      · exact ⟨.inr (.inr ⟨rfl, h, h0⟩), fun hx => by rw [h] at hx; cases hx⟩
      · exact ⟨.inr (.inl ⟨rfl, h⟩), fun _ => hp⟩
    · rintro ⟨⟨h, -⟩ | ⟨-, h⟩ | ⟨-, h, h0⟩, hp⟩
      · cases h
      · exact ⟨nofun, fun _ => .inr ⟨h, hp h⟩⟩
      · exact ⟨nofun, fun _ => .inl ⟨h, h0⟩⟩

/-- A lane of a state within the slot invariants. -/
theorem SlotInv.laneOk {s : State} (h : SlotInv s) (e : EpId) (d : Dir) :
    LaneOk s.cfg e d (s.ep.get e).phase (lane s e d) := by
  refine ⟨fun k => h.stall e d k, ?_⟩
  have hptr := h.pointer e d
  rw [queued_eq] at hptr
  rcases hq : (lane s e d).queue with _ | ⟨c, q⟩
  · rw [hq] at hptr
    have hptr : (lane s e d).ptr = (lane s e d).sel := hptr
    by_cases ho : ((lane s e d).slots.get (lane s e d).sel).own = true
    · exact .inr ⟨h.ownedPhase e d _ ho, .inl ⟨fun k => ⟨h.owned e d k, fun hk => hk ▸ ho⟩, hq, hptr⟩⟩
    · refine .inl ⟨fun k => ?_, hq, hptr⟩
      rw [← Bool.not_eq_true]
      intro hk
      rw [h.owned e d k hk] at hk
      exact ho hk
  · have hlen := h.single e d
    rw [queued_eq, hq] at hlen
    obtain rfl : q = [] := List.eq_nil_of_length_eq_zero (by simpa using hlen)
    obtain ⟨hc, hce, hcd⟩ := mem_queueOf.1 (show c ∈ (lane s e d).queue by simp [hq])
    obtain ⟨f, hf, hn, ho, ha, hp⟩ := h.queue c hc
    obtain rfl : f = e := EpId.num_inj (by omega)
    subst hcd
    have ho : c.odd = (lane s f c.dir).sel := ho
    obtain ⟨hp1, hp2⟩ := pidExpected_iff.1 hp
    rw [hq] at hptr
    refine .inr ⟨ha, .inr ⟨⟨fun k => ?_, ⟨c, hq, ho⟩, hptr, ho ▸ hp1, ho ▸ hp2⟩, hn⟩⟩
    rw [← Bool.not_eq_true]
    intro hk
    have := h.exclusive f c.dir k hk
    rw [queued_eq, hq] at this
    cases this

/-- The slot invariants, endpoint by endpoint. -/
theorem slotInv_iff {s : State} : SlotInv s ↔ QueueOk s ∧ ∀ e, EpOk s e := by
  constructor
  · intro h
    exact ⟨⟨h.depth, h.setupLast⟩, fun e => ⟨⟨fun he => he ▸ h.ep0On, h.legal e, h.off e⟩, h.laneOk e⟩⟩
  · rintro ⟨hq, h⟩
    have armed : ∀ {e d k}, (slot s e d k).own = true →
        ActivePhase s.cfg e d (s.ep.get e).phase ∧ (lane s e d).Armed := by
      intro e d k ho
      rcases ((h e).lane d).state with hf | ⟨ha, hf | ⟨hf, -⟩⟩
      · exact absurd ho (by rw [slot_eq, hf.own k]; simp)
      · exact ⟨ha, hf⟩
      · exact absurd ho (by rw [slot_eq, hf.own k]; simp)
    refine ⟨hq.depth, (h .ep0).record.on rfl, fun e => (h e).record.legal, fun e => (h e).record.off,
      fun e d k ho => ((armed ho).2.own k).1 ho, fun e d k ho => (armed ho).1, fun e d => ?_,
      fun e d k ho => by rw [queued_eq, (armed ho).2.queue]; rfl, fun e d => ?_, fun e d k => ((h e).lane d).stall k,
      fun c hc => ?_, hq.setupLast⟩
    · rw [queued_eq]
      rcases ((h e).lane d).state with hf | ⟨-, hf | ⟨hf, -⟩⟩
      · simp [hf.queue]
      · simp [hf.queue]
      · obtain ⟨c, hc, -⟩ := hf.queue; simp [hc]
    · rw [queued_eq]
      show (lane s e d).ptr = if _ then (lane s e d).sel else !(lane s e d).sel
      rcases ((h e).lane d).state with hf | ⟨-, hf | ⟨hf, -⟩⟩
      · rw [hf.queue, hf.ptr]; rfl
      · rw [hf.queue, hf.ptr]; rfl
      · obtain ⟨c, hc, -⟩ := hf.queue; rw [hc, hf.ptr]; rfl
    · obtain ⟨e, he, hm⟩ := mem_lane hc
      rcases ((h e).lane c.dir).state with hf | ⟨ha, hf | ⟨hf, hn⟩⟩
      · rw [hf.queue] at hm; cases hm
      · rw [hf.queue] at hm; cases hm
      · obtain ⟨c', hc', ho⟩ := hf.queue
        rw [hc'] at hm
        obtain rfl := List.mem_singleton.1 hm
        refine ⟨e, he, hn, ho, ha, pidExpected_iff.2 ?_⟩
        rw [slot_eq, ho]
        exact ⟨hf.pid, hf.out⟩

/-! ## Lanes moved and lanes left alone -/

/-- An endpoint's record and lanes are the same. -/
structure Same (s t : State) (f : EpId) : Prop where
  record : t.ep.get f = s.ep.get f
  lane : ∀ d, lane t f d = lane s f d

section
variable {s t u : State} {e f : EpId} {d : Dir}

theorem same_of (hep : t.ep.get f = s.ep.get f) (hbdt : t.bdt.get f = s.bdt.get f)
    (hodd : t.sie.odd.get f = s.sie.odd.get f) (hq : ∀ d, queueOf t.sie.tokq f d = queueOf s.sie.tokq f d) :
    Same s t f := ⟨hep, fun d => by simp only [lane, slots, hep, hbdt, hodd, hq]⟩

theorem Same.trans (h : Same s t f) (g : Same t u f) : Same s u f :=
  ⟨g.record.trans h.record, fun d => (g.lane d).trans (h.lane d)⟩

theorem Calm.same (h : Calm s t) (f : EpId) : Same s t f :=
  same_of (by rw [h.ep]) (by rw [h.bdt]) (by rw [h.odd]) fun d => by rw [h.tokq]

theorem EpOk.same (h : EpOk s f) (hc : t.cfg = s.cfg) (hs : Same s t f) : EpOk t f := by
  obtain ⟨hr, hl⟩ := h
  refine ⟨by rw [hc, hs.record]; exact hr, fun d => ?_⟩
  rw [hc, hs.record, hs.lane]; exact hl d

theorem EpBank.get_ep0 {α : Type} (b : EpBank α) (x : α) {f : EpId} (hf : f ≠ .ep0) :
    ({ b with ep0 := x } : EpBank α).get f = b.get f := by
  cases f with
  | ep0 => exact absurd rfl hf
  | _ => rfl

/-- A queue with fewer completions and the same order keeps its SETUP last. -/
theorem QueueOk.sublist (h : QueueOk s) (hc : t.cfg = s.cfg) (hs : t.sie.tokq.Sublist s.sie.tokq)
    (hp : ∀ k, (slot t .ep0 .rx k).pid = (slot s .ep0 .rx k).pid) (hb : t.sie.tokenSuspended = s.sie.tokenSuspended) :
    QueueOk t := by
  refine ⟨by rw [hc]; exact hs.length_le.trans h.depth, fun q c r hq h0 hd hpid => ?_⟩
  rw [hq] at hs
  obtain ⟨l1, l2, hl, -, h2⟩ := List.append_sublist_iff.1 hs
  obtain ⟨r1, r2, hr, hm, h3⟩ := List.cons_sublist_iff.1 h2
  obtain ⟨a, b, rfl⟩ := List.append_of_mem hm
  obtain ⟨hx, hb'⟩ := h.setupLast (l1 ++ a) c (b ++ r2) (by rw [hl, hr]; simp) h0 hd (hp _ ▸ hpid)
  obtain ⟨-, rfl⟩ := List.append_eq_nil_iff.1 hx
  exact ⟨List.sublist_nil.1 h3, hb.trans hb'⟩

theorem QueueOk.calm (h : QueueOk s) (hc : Calm s t) : QueueOk t :=
  h.sublist hc.cfg (by rw [hc.tokq]) (fun k => by rw [slot_eq, slot_eq, (hc.same .ep0).lane]) hc.suspended

/-- A queue with no completion of EP0 has no SETUP to keep last. -/
theorem queueOk_noEp0 (hl : t.sie.tokq.length ≤ t.cfg.tokqDepth) (h : ∀ c ∈ t.sie.tokq, c.ep.toNat ≠ 0) : QueueOk t :=
  ⟨hl, fun q c r hq h0 => absurd h0 (h c (by rw [hq]; simp))⟩

theorem SlotInv.calm (h : SlotInv s) (hc : Calm s t) : SlotInv t := by
  obtain ⟨hq, he⟩ := slotInv_iff.1 h
  exact slotInv_iff.2 ⟨hq.calm hc, fun e => (he e).same hc.cfg (hc.same e)⟩

/-- The slot invariants after a change of one endpoint. -/
theorem slotInv_of_ep (hq : QueueOk t) (hc : t.cfg = s.cfg) (h : ∀ f, f ≠ e → EpOk s f) (hs : ∀ f, f ≠ e → Same s t f)
    (he : EpOk t e) : SlotInv t := by
  refine slotInv_iff.2 ⟨hq, fun f => ?_⟩
  by_cases hf : f = e
  · exact hf ▸ he
  · exact (h f hf).same hc (hs f hf)

end

section
variable {l : Lane} {c : Params} {e : EpId} {d : Dir} {p p' : Phase}

/-- A free lane with the selector's slot handed to the SIE is armed. -/
theorem Lane.Free.arm (h : l.Free) {y : Slot} (hy : y.own = true) :
    Lane.Armed ⟨l.sel, l.ptr, l.slots.set l.sel y, l.queue⟩ := by
  refine ⟨fun k => ?_, h.queue, h.ptr⟩
  simp only [HalfPair.get_set]
  split
  · simp_all
  · simp_all [h.own k]

/-- A lane in no phase that serves it is free. -/
theorem LaneOk.free (h : LaneOk c e d p l) (hp : ¬ ActivePhase c e d p) : l.Free :=
  h.state.resolve_right fun hx => hp hx.1

/-- The direction an endpoint other than EP0 has not is served in no phase. -/
theorem not_active_other (h0 : e ≠ .ep0) (hd : dirOf c e ≠ d) (p : Phase) : ¬ ActivePhase c e d p := by
  simp [ActivePhase, activePhases, h0, hd]

/-- The lane an endpoint other than EP0 has not is free in every phase. -/
theorem LaneOk.other (h : LaneOk c e d p l) (h0 : e ≠ .ep0) (hd : dirOf c e ≠ d) : LaneOk c e d p' l :=
  ⟨fun k => by simp [h.stall k, h0, hd], .inl (h.free (not_active_other h0 hd p))⟩

end

end Sys2Proof.Machine
end

section
/-! PROOFS. Every effect of a step keeps the slot invariants (R44, R31, R60). -/

namespace Sys2Proof.Machine

/-! ## The queue of a lane -/

section
variable {q : List Completion} {e f : EpId} {d g : Dir} {c : Completion}

theorem queueOf_cons (c : Completion) (q : List Completion) (e : EpId) (d : Dir) :
    queueOf (c :: q) e d = if c.ep.toNat = e.num ∧ c.dir = d then c :: queueOf q e d else queueOf q e d := by
  simp [queueOf, List.filter_cons, ofEp]

theorem queueOf_append (q r : List Completion) (e : EpId) (d : Dir) :
    queueOf (q ++ r) e d = queueOf q e d ++ queueOf r e d := List.filter_append ..

/-- A lane's completions are kept by a filter that keeps each of them. -/
theorem queueOf_filter_keep {r : Completion → Bool} (h : ∀ c, c.ep.toNat = f.num → c.dir = g → r c = true) :
    queueOf (q.filter r) f g = queueOf q f g := by
  unfold queueOf
  rw [List.filter_filter]
  refine List.filter_congr fun c _ => ?_
  by_cases hc : (ofEp c f && c.dir == g) = true
  · have hx : c.ep.toNat = f.num ∧ c.dir = g := by simpa [ofEp] using hc
    rw [hc, h c hx.1 hx.2]; rfl
  · rw [Bool.not_eq_true] at hc; rw [hc]; rfl

/-- A lane's completions are gone after a filter that drops each of them. -/
theorem queueOf_filter_drop {r : Completion → Bool} (h : ∀ c, c.ep.toNat = f.num → c.dir = g → r c = false) :
    queueOf (q.filter r) f g = [] := by
  unfold queueOf
  rw [List.filter_filter, List.filter_eq_nil_iff]
  intro c _ hc
  simp only [Bool.and_eq_true, ofEp, beq_iff_eq] at hc
  rw [h c hc.1.1 hc.1.2] at hc
  exact absurd hc.2 (by decide)

/-- The queue without the completions of an endpoint (R173). -/
theorem queueOf_purged (s : State) (e f : EpId) (g : Dir) :
    queueOf (purged s e) f g = if f = e then [] else queueOf s.sie.tokq f g := by
  split
  · rename_i h; exact queueOf_filter_drop fun c hc _ => by simp [hc, h]
  · rename_i h; exact queueOf_filter_keep fun c hc _ => by simpa [hc] using fun hx => h (EpId.num_inj hx)

/-- The queue without EP0's IN completions (R173, R238, R281). -/
theorem queueOf_dropTx (q : List Completion) (f : EpId) (g : Dir) :
    queueOf (q.filter fun c => !(c.ep.toNat == 0 && c.dir == .tx)) f g =
      if f = .ep0 ∧ g = .tx then [] else queueOf q f g := by
  have h0 : ∀ n : EpId, n.num = 0 ↔ n = .ep0 := fun n => ⟨fun h => EpId.num_inj h, fun h => h ▸ rfl⟩
  split
  · rename_i h; exact queueOf_filter_drop fun c hc hd => by simp [hc, hd, h0, h]
  · rename_i h; exact queueOf_filter_keep fun c hc hd => by simpa [hc, hd, h0, ← not_and_or] using h

/-- A completion taken out of the queue: the oldest of EP0 if there is one, else the oldest (R372). -/
theorem takeCompletion_split {l : List Completion} (h : takeCompletion l = some (c, q)) :
    ∃ as bs, l = as ++ c :: bs ∧ q = as ++ bs ∧ ∀ a ∈ as, a.ep.toNat ≠ 0 := by
  unfold takeCompletion at h
  cases hf : l.find? fun c => ofEp c .ep0 with
  | some x =>
    rw [hf] at h
    cases h
    obtain ⟨hp, as, bs, rfl, hb⟩ := List.find?_eq_some_iff_append.1 hf
    have hne : ∀ a ∈ as, a.ep.toNat ≠ 0 := fun a ha => by simpa [ofEp, EpId.num] using hb a ha
    have hx : c ∉ as := fun hx => hne c hx (by simpa [ofEp, EpId.num] using hp)
    exact ⟨as, bs, rfl, by rw [List.erase_append_right _ hx, List.erase_cons_head], hne⟩
  | none =>
    rw [hf] at h
    cases l with
    | nil => cases h
    | cons a r => cases h; exact ⟨[], q, rfl, rfl, nofun⟩

end

/-! ## Phases -/

section
variable {c : Params} {e : EpId} {d : Dir} {p : Phase}

/-- A served phase of an endpoint other than EP0 is a transfer phase of its own direction (R31). -/
theorem active_iff (h0 : e ≠ .ep0) : ActivePhase c e d p ↔ dirOf c e = d ∧ p ∈ transferPhases d := by
  unfold ActivePhase activePhases
  rw [if_neg h0]
  split <;> simp_all

theorem transfer_ne_stall (h : p ∈ transferPhases d) : p ≠ .stall := by
  rintro rfl; cases d <;> simp [transferPhases] at h

theorem transfer_ne_idle (h : p ∈ transferPhases d) : p ≠ .idle := by
  rintro rfl; cases d <;> simp [transferPhases] at h

theorem not_active_idle (h0 : e ≠ .ep0) : ¬ ActivePhase c e d .idle := fun h =>
  transfer_ne_idle ((active_iff h0).1 h).2 rfl

/-- EP0's RX lane goes from phase to phase while EP0 is not halted before or after. -/
theorem LaneOk.rephase {l : Lane} {p' : Phase} (h : LaneOk c .ep0 .rx p l) (hp : p ≠ .stall) (hp' : p' ≠ .stall)
    (hl : LegalPhase c .ep0 p') : LaneOk c .ep0 .rx p' l := by
  refine ⟨fun k => by simp [h.stall k, hp, hp'], h.state.imp_right fun ⟨_, hx⟩ => ⟨hl, hx.imp_right fun ⟨hd, hn⟩ => ?_⟩⟩
  exact ⟨⟨hd.own, hd.queue, hd.ptr, hd.pid, fun _ => hp'⟩, hn⟩

/-- A free lane stays free from phase to phase while the endpoint is not halted before or after. -/
theorem LaneOk.free_rephase {l : Lane} {p' : Phase} (h : LaneOk c e d p l) (hf : l.Free) (hp : p ≠ .stall)
    (hp' : p' ≠ .stall) : LaneOk c e d p' l := ⟨fun k => by simp [h.stall k, hp, hp'], .inl hf⟩

/-- A free lane with its selector's slot handed to the SIE, in a phase that serves it. -/
theorem LaneOk.arm {l : Lane} {p' : Phase} (h : LaneOk c e d p l) (hf : l.Free) (hp : p ≠ .stall) (hp' : p' ≠ .stall)
    (ha : ActivePhase c e d p') {y : Slot} (hy : y.own = true) (hst : y.stall = false) :
    LaneOk c e d p' ⟨l.sel, l.ptr, l.slots.set l.sel y, l.queue⟩ := by
  refine ⟨fun k => ?_, .inr ⟨ha, .inl (hf.arm hy)⟩⟩
  simp only [HalfPair.get_set]
  split
  · simp [hst, hp']
  · simp [h.stall k, hp, hp']

end

/-! ## One packet armed -/

/-- The slot an armed packet stands in (R231, R232). -/
def packetSlot (c : Params) (e : EpId) (d : Dir) (x : EndpointState) (y : Slot) : Slot :=
  ⟨true, x.toggle.get d, false, BitVec.ofNat 10 (min x.remaining.toNat (mps c e)), x.ptr, y.pid⟩

section
variable (s : State) (e : EpId) (d : Dir) (x : EndpointState)

theorem lane_packetArmed_self : lane (packetArmed s e d x) e d =
    ⟨x.odd.get d, (lane s e d).ptr, (lane s e d).slots.set (x.odd.get d)
      (packetSlot s.cfg e d x ((lane s e d).slots.get (x.odd.get d))), (lane s e d).queue⟩ := by
  simp [lane, slots, packetArmed, packetSlot]

theorem lane_packetArmed_other {g : Dir} (hg : g ≠ d) :
    lane (packetArmed s e d x) e g = { lane s e g with sel := x.odd.get g } := by
  simp [lane, slots, packetArmed, DirPair.get_set, hg]

theorem same_packetArmed {f : EpId} (hf : f ≠ e) : Same s (packetArmed s e d x) f :=
  same_of (by simp [packetArmed, EpBank.get_set, hf]) (by simp [packetArmed, EpBank.get_set, hf]) rfl fun _ => rfl

/-- A packet armed in another lane than EP0's RX leaves the queue as it is, with the PIDs of EP0's RX slots. -/
theorem QueueOk.packetArmed {s : State} {e : EpId} {d : Dir} {x : EndpointState} (h : QueueOk s) :
    QueueOk (packetArmed s e d x) := by
  refine h.sublist rfl (.refl _) (fun k => ?_) rfl
  by_cases he : e = .ep0
  · subst he
    cases d with
    | rx =>
      rw [slot_eq, slot_eq, lane_packetArmed_self]
      simp only [HalfPair.get_set]
      split
      · rename_i hk; rw [hk]; rfl
      · rfl
    | tx => rw [slot_eq, slot_eq, lane_packetArmed_other _ _ _ _ (by decide)]
  · rw [slot_eq, slot_eq, (same_packetArmed s e d x (Ne.symm he)).lane]

end

/-! ## Starting and halting a transfer -/

section
variable {s t u : State} {e : EpId} {d : Dir} {k : Bool}

theorem SlotInv.epOk (h : SlotInv s) (e : EpId) : EpOk s e := (slotInv_iff.1 h).2 e

theorem SlotInv.queueOk (h : SlotInv s) : QueueOk s := (slotInv_iff.1 h).1

/-- A lane of an Idle endpoint other than EP0 is free. -/
theorem SlotInv.free_idle (h : SlotInv s) (h0 : e ≠ .ep0) (hp : (s.ep.get e).phase = .idle) (d : Dir) :
    (lane s e d).Free := ((h.epOk e).lane d).free (hp ▸ not_active_idle h0)

/-- The phase a started transfer goes to is one of its direction's (R233, R234). -/
theorem start_phase (s : State) (i : EpId) (d : Dir) (len : BitVec 16) :
    (match d with
      | .tx => inPhase s.cfg i (min len.toNat (mps s.cfg i))
      | .rx => .dataOut) ∈ transferPhases d := by
  cases d with
  | rx => simp [transferPhases]
  | tx => simp only [inPhase, transferPhases]; split <;> simp

/-- A transfer started on an Idle endpoint (R233, R234). -/
theorem SlotInv.start (h : SlotInv s) {i : EpId} (ho : Other s.cfg i) (hen : (s.ep.get i).enabled = true)
    (hd : dirOf s.cfg i = d) (hp : (s.ep.get i).phase = .idle) (buf : Addr) (len : BitVec 16) :
    SlotInv (transferBegun s i d buf len) := by
  have hph := start_phase s i d len
  have hget : (transferBegun s i d buf len).ep.get i = _ := EpBank.get_set_self s.ep i _
  refine slotInv_of_ep (s := s) (e := i) h.queueOk.packetArmed rfl (fun f _ => h.epOk f)
    (fun f hf => same_packetArmed s i d _ hf) ⟨?_, fun g => ?_⟩
  · rw [hget]
    refine ⟨fun _ => hen, ?_, fun hx => absurd (hen.symm.trans hx) (by decide)⟩
    simp only [LegalPhase, legalPhases, if_neg ho.1, List.mem_cons]
    exact .inr (.inr (hd.symm ▸ hph))
  · rw [hget]
    have hl := (h.epOk i).lane g
    rw [hp] at hl
    by_cases hg : g = d
    · subst hg
      exact lane_packetArmed_self s i g _ ▸ hl.arm (h.free_idle ho.1 hp g) (by decide) (transfer_ne_stall hph)
        ((active_iff ho.1).2 ⟨hd, hph⟩) rfl rfl
    · exact lane_packetArmed_other s i d _ hg ▸ hl.other ho.1 (fun hx => hg (hx.symm.trans hd))

/-- An endpoint other than EP0 halted, or its halt ended (R238, R239). -/
theorem SlotInv.halt (h : SlotInv s) {i : EpId} {st : Bool} {p : Phase} (ho : Other s.cfg i)
    (hen : (s.ep.get i).enabled = true) (hp : HaltForm st p) : SlotInv (epHalted s i st p) := by
  have hget : (epHalted s i st p).ep.get i = _ := EpBank.get_set_self s.ep i _
  refine slotInv_of_ep (s := s) (e := i) (h.queueOk.sublist rfl List.filter_sublist (fun k => ?_) rfl) rfl
    (fun f _ => h.epOk f) (fun f hf => ?_) ⟨?_, fun g => ?_⟩
  · simp [slot, slots, epHalted, epReinit, EpBank.get_set, ho.1.symm]
  · refine same_of ?_ ?_ ?_ fun g => ?_
    · simp [epHalted, epReinit, EpBank.get_set, hf]
    · simp [epHalted, epReinit, EpBank.get_set, hf]
    · simp [epHalted, epReinit, EpBank.get_set, hf]
    · exact (queueOf_purged s i f g).trans (if_neg hf)
  · rw [hget]
    refine ⟨fun _ => hen, ?_, fun hx => absurd (hen.symm.trans hx) (by decide)⟩
    rcases hp with ⟨-, rfl⟩ | ⟨-, rfl⟩ <;> simp [LegalPhase, legalPhases, ho.1]
  · rw [hget]
    have hq : queueOf (purged s i) i g = [] := by rw [queueOf_purged, if_pos rfl]
    by_cases hg : g = dirOf s.cfg i
    · subst hg
      have hl : ∀ k, (lane (epHalted s i st p) i (dirOf s.cfg i)).slots.get k =
          takeBack st ((lane s i (dirOf s.cfg i)).slots.get k) := by
        intro k; cases k <;> simp [lane, slots, epHalted, epReinit, HalfPair.get, takeBack]
      refine ⟨fun k => ?_, .inl ⟨fun k => by rw [hl]; rfl, hq, ?_⟩⟩
      · rw [hl]
        rcases hp with ⟨rfl, rfl⟩ | ⟨rfl, rfl⟩ <;> simp [takeBack, epHalted, epReinit]
      · simp [lane, epHalted, epReinit]
    · have hl : (lane (epHalted s i st p) i g).slots = (lane s i g).slots := by
        simp [lane, slots, epHalted, epReinit, DirPair.get_set, hg]
      have hx := ((h.epOk i).lane g).other (p' := p) ho.1 (Ne.symm hg)
      refine ⟨fun k => hl ▸ hx.stall k, .inl ⟨fun k => ?_, hq, ?_⟩⟩
      · rw [hl]; exact (((h.epOk i).lane g).free (not_active_other ho.1 (Ne.symm hg) _)).own k
      · simp [lane, epHalted, epReinit]

end

end Sys2Proof.Machine
end

section
namespace Sys2Proof.Machine

/-! ## Endpoint 0 -/

/-- EP0 has nothing owned or queued in either lane and is Idle: its state after a SETUP's resynchronisation (R272). -/
structure Quiet (s : State) : Prop where
  rx : (lane s .ep0 .rx).Free
  tx : (lane s .ep0 .tx).Free
  phase : s.ep.ep0.phase = .idle
  queue : ∀ c ∈ s.sie.tokq, c.ep.toNat ≠ 0

section
variable {s t u : State} {e : EpId} {d : Dir} {k : Bool}

/-- Of EP0's record the slot invariants ask that it is enabled and in one of EP0's phases. -/
theorem recordOk_ep0 {c : Params} {x : EndpointState} (hen : x.enabled = true) (hl : LegalPhase c .ep0 x.phase) :
    RecordOk c .ep0 x := ⟨fun _ => hen, hl, fun h => absurd (hen.symm.trans h) (by decide)⟩

/-- EP0's RX slot armed at the selector, its PID kept. -/
theorem pid_armedEp0Rx (s : State) (x : EndpointState) (p : HalfPair Slot) (k : Bool) :
    ((armedEp0Rx s x p).get k).pid = (p.get k).pid := by
  simp only [armedEp0Rx, HalfPair.get_set]
  split
  · rename_i h; rw [h]
  · rfl

theorem same_ep0Stalled (c : StallCause) {f : EpId} (hf : f ≠ .ep0) : Same s (ep0Stalled s c) f :=
  same_of (EpBank.get_ep0 _ _ hf) (EpBank.get_ep0 _ _ hf) (EpBank.get_ep0 _ _ hf) fun g =>
    (queueOf_dropTx _ f g).trans (if_neg fun h => hf h.1)

theorem same_ep0RxArmed (x : EndpointState) {f : EpId} (hf : f ≠ .ep0) : Same s (ep0RxArmed s x) f :=
  same_of (EpBank.get_ep0 _ _ hf) (EpBank.get_ep0 _ _ hf) rfl fun _ => rfl

theorem same_ep0Armed (x : EndpointState) (a : Addr) (n : Nat) {f : EpId} (hf : f ≠ .ep0) :
    Same s (ep0Armed s x a n) f :=
  same_of (EpBank.get_ep0 _ _ hf) (EpBank.get_ep0 _ _ hf) rfl fun _ => rfl

/-- A phase that serves a lane is one of the endpoint's. -/
theorem active_legal {c : Params} {p : Phase} (h : ActivePhase c e d p) : LegalPhase c e p := by
  by_cases h0 : e = .ep0
  · subst h0
    cases d with
    | rx => exact h
    | tx => simp only [ActivePhase, activePhases, if_true, List.mem_cons, List.not_mem_nil, or_false] at h
            rcases h with rfl | rfl | rfl <;> (show _ ∈ ep0Phases; decide)
  · obtain ⟨rfl, hp⟩ := (active_iff h0).1 h
    simp [LegalPhase, legalPhases, h0, hp]

theorem active_ep0Tx {c : Params} {p : Phase} :
    ActivePhase c .ep0 .tx p ↔ p = .dataIn ∨ p = .lastIn ∨ p = .statusIn := by
  simp [ActivePhase, activePhases]

/-- The slot EP0's RX is armed in (R232). -/
def ep0RxSlot (c : Params) (x : EndpointState) (y : Slot) : Slot :=
  ⟨true, x.toggle.rx, false, BitVec.ofNat 10 c.ep0Mps, bufAddr c .ep0 .rx x.odd.rx, y.pid⟩

/-- EP0's RX lane after it is armed. -/
theorem lane_ep0RxArmed_rx {x : EndpointState} (hodd : x.odd = s.ep.ep0.odd) : lane (ep0RxArmed s x) .ep0 .rx =
    ⟨(lane s .ep0 .rx).sel, (lane s .ep0 .rx).ptr, (lane s .ep0 .rx).slots.set (lane s .ep0 .rx).sel
      (ep0RxSlot s.cfg x ((lane s .ep0 .rx).slots.get (lane s .ep0 .rx).sel)), (lane s .ep0 .rx).queue⟩ := by
  simp [lane, slots, ep0RxArmed, armedEp0Rx, ep0RxSlot, EpBank.get, DirPair.get, hodd]

theorem lane_ep0RxArmed_tx {x : EndpointState} (hodd : x.odd = s.ep.ep0.odd) :
    lane (ep0RxArmed s x) .ep0 .tx = lane s .ep0 .tx := by
  simp [lane, slots, ep0RxArmed, EpBank.get, DirPair.get, hodd]

theorem lane_ep0Armed_rx (x : EndpointState) (a : Addr) (n : Nat) :
    lane (ep0Armed s x a n) .ep0 .rx = lane (ep0RxArmed s x) .ep0 .rx := rfl

theorem lane_ep0Armed_tx {x : EndpointState} (hodd : x.odd = s.ep.ep0.odd) (a : Addr) (n : Nat) :
    lane (ep0Armed s x a n) .ep0 .tx =
      ⟨(lane s .ep0 .tx).sel, (lane s .ep0 .tx).ptr, (lane s .ep0 .tx).slots.set (lane s .ep0 .tx).sel
        ⟨true, x.toggle.tx, false, BitVec.ofNat 10 n, a, ((lane s .ep0 .tx).slots.get (lane s .ep0 .tx).sel).pid⟩,
       (lane s .ep0 .tx).queue⟩ := by
  simp [lane, slots, ep0Armed, EpBank.get, DirPair.get, hodd]

/-- EP0's RX slots after a stall: the selector's armed with its stall bit, the other halted (R238). -/
theorem slot_ep0Stalled_rx (s : State) (c : StallCause) (k : Bool) :
    slot (ep0Stalled s c) .ep0 .rx k = if k = s.ep.ep0.odd.rx then
      ⟨true, false, true, BitVec.ofNat 10 s.cfg.ep0Mps, bufAddr s.cfg .ep0 .rx s.ep.ep0.odd.rx,
        (slot s .ep0 .rx s.ep.ep0.odd.rx).pid⟩ else haltedSlot (slot s .ep0 .rx k) := by
  refine (HalfPair.get_set _ _ _ _).trans ?_
  split
  · rfl
  · cases k <;> rfl

/-- EP0 stalled while nothing of its RX lane is owned or queued (R238, R442). -/
theorem SlotInv.stalled (h : SlotInv s) (hf : (lane s .ep0 .rx).Free) (c : StallCause) : SlotInv (ep0Stalled s c) := by
  have hslot := slot_ep0Stalled_rx s c
  have htx : ∀ k, slot (ep0Stalled s c) .ep0 .tx k = haltedSlot (slot s .ep0 .tx k) := fun k => by cases k <;> rfl
  have hq : ∀ g, (lane (ep0Stalled s c) .ep0 g).queue = if g = .tx then [] else (lane s .ep0 g).queue := fun g =>
    (queueOf_dropTx _ .ep0 g).trans (by simp; rfl)
  refine slotInv_of_ep (s := s) (e := .ep0) (h.queueOk.sublist rfl List.filter_sublist (fun k => ?_) rfl) rfl
    (fun f _ => h.epOk f) (fun _ => same_ep0Stalled c)
    ⟨recordOk_ep0 h.ep0On (show Phase.stall ∈ ep0Phases by decide), fun g => ?_⟩
  · rw [hslot]; split
    · rename_i hk; rw [hk]
    · rfl
  · cases g with
    | rx =>
      refine ⟨fun k => ?_, .inr ⟨show Phase.stall ∈ ep0Phases by decide,
        .inl ⟨fun k => ?_, (hq .rx).trans hf.queue, hf.ptr⟩⟩⟩
      · rw [← slot_eq, hslot]; split <;> simp [haltedSlot, ep0Stalled, EpBank.get]
      · rw [← slot_eq, hslot]; split
        · rename_i hk; simp [hk]; rfl
        · rename_i hk; simp [haltedSlot]; exact hk
    | tx =>
      refine ⟨fun k => ?_, .inl ⟨fun k => ?_, hq .tx, rfl⟩⟩
      · rw [← slot_eq, htx]; simp [haltedSlot, ep0Stalled, EpBank.get]
      · rw [← slot_eq, htx]; rfl

/-- EP0's RX lane armed, its TX lane free (R232). -/
theorem SlotInv.rxArmed (h : SlotInv s) (hrx : (lane s .ep0 .rx).Free) (htx : (lane s .ep0 .tx).Free)
    {x : EndpointState} (hen : x.enabled = true) (hodd : x.odd = s.ep.ep0.odd) (hp : s.ep.ep0.phase ≠ .stall)
    {p : Phase} (hx : x.phase = p) (hl : p ∈ ep0Phases) (hp' : p ≠ .stall) : SlotInv (ep0RxArmed s x) := by
  subst hx
  refine slotInv_of_ep (s := s) (e := .ep0) (h.queueOk.sublist rfl (.refl _) (pid_armedEp0Rx s x _) rfl) rfl
    (fun f _ => h.epOk f) (fun _ => same_ep0RxArmed x) ⟨recordOk_ep0 hen hl, fun g => ?_⟩
  cases g with
  | rx => exact lane_ep0RxArmed_rx hodd ▸ ((h.epOk .ep0).lane .rx).arm hrx hp hp' hl rfl rfl
  | tx => exact lane_ep0RxArmed_tx hodd ▸ ((h.epOk .ep0).lane .tx).free_rephase htx hp hp'

/-- Both lanes of EP0 armed (R231, R232). -/
theorem SlotInv.bothArmed (h : SlotInv s) (hrx : (lane s .ep0 .rx).Free) (htx : (lane s .ep0 .tx).Free)
    {x : EndpointState} (hen : x.enabled = true) (hodd : x.odd = s.ep.ep0.odd) (hp : s.ep.ep0.phase ≠ .stall)
    {p : Phase} (hx : x.phase = p) (hl : p = .dataIn ∨ p = .lastIn ∨ p = .statusIn) (a : Addr) (n : Nat) :
    SlotInv (ep0Armed s x a n) := by
  subst hx
  have hp' : x.phase ≠ .stall := by rintro hx; simp [hx] at hl
  have hl' : x.phase ∈ ep0Phases := by rcases hl with hl | hl | hl <;> rw [hl] <;> decide
  refine slotInv_of_ep (s := s) (e := .ep0) (h.queueOk.sublist rfl (.refl _) (pid_armedEp0Rx s x _) rfl) rfl
    (fun f _ => h.epOk f) (fun _ => same_ep0Armed x a n) ⟨recordOk_ep0 hen hl', fun g => ?_⟩
  cases g with
  | rx =>
    exact lane_ep0Armed_rx x a n ▸ lane_ep0RxArmed_rx hodd ▸
      ((h.epOk .ep0).lane .rx).arm hrx hp hp' hl' rfl rfl
  | tx => exact lane_ep0Armed_tx hodd a n ▸ ((h.epOk .ep0).lane .tx).arm htx hp hp' (active_ep0Tx.2 hl) rfl rfl

end

end Sys2Proof.Machine
end

section
namespace Sys2Proof.Machine

/-! ## A completion taken out of the queue -/

/-- The slot invariants of `u` but for lane (e, d), whose completion has been taken out of the queue and whose selector
has yet to follow the SIE's pointer; if it was a SETUP, nothing of EP0 is queued any more (R162, R372). -/
structure PoppedInv (u : State) (e : EpId) (d : Dir) (k : Bool) : Prop where
  queue : QueueOk u
  others : ∀ f, f ≠ e → EpOk u f
  record : RecordOk u.cfg e (u.ep.get e)
  other : ∀ g, g ≠ d → LaneOk u.cfg e g (u.ep.get e).phase (lane u e g)
  stall : StallBits u.cfg e d (u.ep.get e).phase (lane u e d)
  flipped : Lane.Free { lane u e d with sel := !(lane u e d).sel }
  active : ActivePhase u.cfg e d (u.ep.get e).phase
  setup : e = .ep0 → d = .rx → (slot u .ep0 .rx k).pid = pidSetup → ∀ c ∈ u.sie.tokq, c.ep.toNat ≠ 0

section
variable {s t u : State} {e : EpId} {d : Dir} {k : Bool}

/-- The lane of a queued completion is done. -/
theorem SlotInv.done (h : SlotInv s) {c : Completion} (hc : c ∈ s.sie.tokq) (he : c.ep.toNat = e.num) :
    ActivePhase s.cfg e c.dir (s.ep.get e).phase ∧ (lane s e c.dir).Done e c.dir (s.ep.get e).phase ∧
      (lane s e c.dir).queue = [c] ∧ c.odd = (lane s e c.dir).sel ∧ e.num < s.cfg.numEp := by
  have hm : c ∈ (lane s e c.dir).queue := mem_queueOf.2 ⟨hc, he, rfl⟩
  rcases ((h.epOk e).lane c.dir).state with hf | ⟨ha, hf | ⟨hf, hn⟩⟩
  · rw [hf.queue] at hm; cases hm
  · rw [hf.queue] at hm; cases hm
  · obtain ⟨c', hq, ho⟩ := hf.queue
    rw [hq] at hm
    obtain rfl := List.mem_singleton.1 hm
    exact ⟨ha, hf, hq, ho, hn⟩

/-- A queued completion is an expected one (R372, R44). -/
theorem SlotInv.expected (h : SlotInv s) {c : Completion} (hc : c ∈ s.sie.tokq) (he : c.ep.toNat = e.num) :
    Expected s e c.dir c.odd := by
  obtain ⟨ha, hf, -, ho, hn⟩ := h.done hc he
  have hpid : (slot s e c.dir c.odd).pid = ((lane s e c.dir).slots.get (lane s e c.dir).sel).pid := by
    rw [slot_eq, ho]
  have hpid' := hf.pid
  have hout := hf.out
  rw [← hpid] at hpid' hout
  have hen : (s.ep.get e).enabled = true := by
    by_cases h0 : e = .ep0
    · subst h0; exact h.ep0On
    · rw [← Bool.not_eq_false]
      exact fun hx => not_active_idle h0 (h.off e hx ▸ ha)
  refine ⟨hn, hpid', ⟨hen, ho, hf.own _, rfl⟩, ?_⟩
  by_cases h0 : e = .ep0
  · subst h0
    rcases hpid' with ⟨hd, hp⟩ | ⟨hd, hp⟩ | ⟨hd, hp, -⟩
    · rw [hd] at ha
      simpa [hp, phaseExpects, pidIn, pidSetup, pidOut, or_assoc] using active_ep0Tx.1 ha
    · simpa [hp, phaseExpects, pidSetup, pidOut] using hout hp
    · simp [hp, phaseExpects]
  · obtain ⟨-, ha⟩ := (active_iff h0).1 ha
    rcases hpid' with ⟨hd, hp⟩ | ⟨hd, hp⟩ | ⟨-, -, hx⟩
    · rw [hd] at ha; simpa [hp, phaseExpects, h0, transferPhases] using ha
    · rw [hd] at ha; simpa [hp, phaseExpects, h0, transferPhases, pidIn, pidOut] using ha
    · exact absurd hx h0

/-- Every lane but that of the completion taken out of the queue is left alone. -/
theorem lane_popped_other {c : Completion} {q : List Completion} (ht : takeCompletion s.sie.tokq = some (c, q))
    (he : c.ep.toNat = e.num) {f : EpId} {g : Dir} (hfg : ¬ (f = e ∧ g = c.dir)) :
    lane (popped s q) f g = lane s f g := by
  obtain ⟨as, bs, hs, rfl, -⟩ := takeCompletion_split ht
  have hn : ¬ (c.ep.toNat = f.num ∧ c.dir = g) := fun hx => hfg ⟨EpId.num_inj (hx.1.symm.trans he), hx.2.symm⟩
  simp [lane, hs, queueOf_append, queueOf_cons, hn]
  rfl

theorem SlotInv.popped (h : SlotInv s) {c : Completion} {q : List Completion}
    (ht : takeCompletion s.sie.tokq = some (c, q)) (he : c.ep.toNat = e.num) :
    PoppedInv (popped s q) e c.dir c.odd := by
  obtain ⟨as, bs, hs, rfl, has⟩ := takeCompletion_split ht
  have hc : c ∈ s.sie.tokq := by simp [hs]
  have hlane : ∀ f g, ¬ (f = e ∧ g = c.dir) → _ := fun f g => lane_popped_other ht he (f := f) (g := g)
  obtain ⟨ha, hd, hq, -⟩ := h.done hc he
  have hsub : (as ++ bs).Sublist s.sie.tokq := by
    rw [hs]; exact (List.Sublist.refl as).append (List.sublist_cons_self c bs)
  refine ⟨h.queueOk.sublist rfl hsub (fun _ => rfl) rfl, fun f hf => (h.epOk f).same rfl ⟨rfl, fun g => ?_⟩,
    (h.epOk e).record, fun g hg => ?_, ((h.epOk e).lane c.dir).stall, ⟨hd.own, ?_, hd.ptr⟩, ha, ?_⟩
  · exact hlane f g fun hx => hf hx.1
  · rw [hlane e g fun hx => hg hx.2]; exact (h.epOk e).lane g
  · have hlen := congrArg List.length hq
    simp only [lane, hs, queueOf_append, queueOf_cons, he, true_and, if_true, List.length_append, List.length_cons,
      List.length_nil] at hlen
    show queueOf (as ++ bs) e c.dir = []
    rw [queueOf_append, List.append_eq_nil_iff, ← List.length_eq_zero_iff, ← List.length_eq_zero_iff]
    omega
  · rintro rfl hd hp a ha
    obtain ⟨rfl, -⟩ := h.setupLast as c bs hs he hd hp
    exact has a (by simpa using ha)

/-! ## Completions served -/

/-- A lane not served just now, of an endpoint whose phase changes, is still what it was: EP0's RX, or the direction
the endpoint has not. -/
theorem PoppedInv.otherLane (h : PoppedInv u e d k) (h1 : e = .ep0 → d = .tx) {p' : Phase}
    (hp : (u.ep.get e).phase ≠ .stall) (hp' : p' ≠ .stall) (hl : LegalPhase u.cfg e p') {g : Dir} (hg : g ≠ d) :
    LaneOk u.cfg e g p' (lane u e g) := by
  have hlane := h.other g hg
  by_cases h0 : e = .ep0
  · subst h0
    obtain rfl := h1 rfl
    cases g with
    | rx => exact hlane.rephase hp hp' hl
    | tx => exact absurd rfl hg
  · have hd := ((active_iff h0).1 h.active).1
    exact hlane.other h0 fun hx => hg (hx.symm.trans hd)

/-- The phase of a served lane other than EP0's RX is not Stall. -/
theorem PoppedInv.ne_stall (h : PoppedInv u e d k) (h1 : e = .ep0 → d = .tx) : (u.ep.get e).phase ≠ .stall := by
  by_cases h0 : e = .ep0
  · subst h0
    obtain rfl := h1 rfl
    intro hx
    have := active_ep0Tx.1 h.active
    rw [hx] at this
    simp at this
  · exact transfer_ne_stall ((active_iff h0).1 h.active).2

/-- The record of an enabled endpoint in another of its phases. -/
theorem RecordOk.rephase {c : Params} {x y : EndpointState} (h : RecordOk c e x) (hen : x.enabled = true)
    (hy : y.enabled = x.enabled) (hl : LegalPhase c e y.phase) : RecordOk c e y :=
  ⟨fun h0 => hy.trans (h.on h0), hl, fun hx => absurd (hen.symm.trans (hy.symm.trans hx)) (by decide)⟩

/-- The next packet of a transfer armed (R235, R236). -/
theorem PoppedInv.next (h : PoppedInv u e d k) (hen : (u.ep.get e).enabled = true) (h1 : e = .ep0 → d = .tx)
    (n : BitVec 10) {p : Phase} (ha : ActivePhase u.cfg e d p) (hl : LegalPhase u.cfg e p) (hp : p ≠ .stall) :
    SlotInv (packetArmed u e d (packetDone (u.ep.get e) d n p)) := by
  have hget : (packetArmed u e d (packetDone (u.ep.get e) d n p)).ep.get e = _ := EpBank.get_set_self u.ep e _
  have hns := h.ne_stall h1
  refine slotInv_of_ep (s := u) (e := e) h.queue.packetArmed rfl h.others (fun f hf => same_packetArmed u e d _ hf)
    ⟨by rw [hget]; exact h.record.rephase hen rfl hl, fun g => ?_⟩
  rw [hget]
  by_cases hg : g = d
  · subst hg
    have hlane : LaneOk u.cfg e g (u.ep.get e).phase { lane u e g with sel := !(lane u e g).sel } :=
      ⟨h.stall, .inl h.flipped⟩
    have hsel : (packetDone (u.ep.get e) g n p).odd.get g = !(lane u e g).sel := by simp [packetDone, lane]
    rw [lane_packetArmed_self, hsel]
    exact hlane.arm h.flipped hns hp ha rfl rfl
  · rw [lane_packetArmed_other _ _ _ _ hg, show (packetDone (u.ep.get e) d n p).odd.get g = (lane u e g).sel by
      simp [packetDone, DirPair.get_set, hg, lane]]
    exact h.otherLane h1 hns hp hl hg

/-- A callback does not read or change what the slot invariants read (R237). -/
theorem callbackRan_same (s : State) (e : EpId) (cb : Option Callback) (f : EpId) : Same s (callbackRan s e cb) f := by
  by_cases hx : cb = some .commitAddress
  · subst hx; exact same_of rfl rfl rfl fun _ => rfl
  · exact (callbackRan_calm s e hx).same f

theorem SlotInv.ran (h : SlotInv s) (e : EpId) (cb : Option Callback) : SlotInv (callbackRan s e cb) := by
  by_cases hx : cb = some .commitAddress
  · subst hx; exact ⟨h.depth, h.ep0On, h.legal, h.off, h.owned, h.ownedPhase, h.single, h.exclusive, h.pointer, h.stall,
      h.queue, h.setupLast⟩
  · exact h.calm (callbackRan_calm s e hx)

/-- The last packet of a transfer (R235, R236). -/
theorem PoppedInv.finish (h : PoppedInv u e d k) (hen : (u.ep.get e).enabled = true) (h1 : e = .ep0 → d = .tx)
    (n : BitVec 10) {p : Phase} (hl : LegalPhase u.cfg e p) (hp : p ≠ .stall) :
    SlotInv (finished u e (packetDone (u.ep.get e) d n p)) := by
  have hns := h.ne_stall h1
  refine SlotInv.ran ?_ e _
  refine slotInv_of_ep (s := u) (e := e) (h.queue.sublist rfl (.refl _) (fun _ => rfl) rfl) rfl h.others
    (fun f hf => same_of (by simp [EpBank.get_set, hf]) rfl rfl fun _ => rfl) ⟨?_, fun g => ?_⟩
  · simp only [EpBank.get_set_self]; exact h.record.rephase hen rfl hl
  · simp only [EpBank.get_set_self]
    by_cases hg : g = d
    · subst hg
      have hlane : LaneOk u.cfg e g (u.ep.get e).phase { lane u e g with sel := !(lane u e g).sel } :=
        ⟨h.stall, .inl h.flipped⟩
      simpa [lane, slots, packetDone] using hlane.free_rephase h.flipped hns hp
    · simpa [lane, slots, packetDone, DirPair.get_set, hg] using h.otherLane h1 hns hp hl hg

/-- EP0's OUT completion with the selector moved on (R278). -/
theorem PoppedInv.flip (h : PoppedInv u .ep0 .rx k) :
    SlotInv (ep0OutFlipped u) ∧ (lane (ep0OutFlipped u) .ep0 .rx).Free := by
  refine ⟨slotInv_of_ep (s := u) (e := .ep0) (h.queue.sublist rfl (.refl _) (fun _ => rfl) rfl) rfl h.others
    (fun f hf => same_of (EpBank.get_ep0 _ _ hf) rfl rfl fun _ => rfl) ⟨⟨h.record.on, h.record.legal, h.record.off⟩,
      fun g => ?_⟩, h.flipped⟩
  cases g with
  | rx => exact ⟨h.stall, .inl h.flipped⟩
  | tx => exact h.other .tx (by decide)

/-- EP0's TX lane is free in a phase that does not serve it. -/
theorem SlotInv.free_ep0Tx (h : SlotInv s) {p : Phase} (hx : s.ep.ep0.phase = p)
    (hp : p ≠ .dataIn ∧ p ≠ .lastIn ∧ p ≠ .statusIn) : (lane s .ep0 .tx).Free := by
  refine ((h.epOk .ep0).lane .tx).free fun ha => ?_
  rw [show (s.ep.get .ep0).phase = p from hx, active_ep0Tx] at ha
  tauto

end

end Sys2Proof.Machine
end

section
namespace Sys2Proof.Machine

/-! ## The SETUP handler and the early status stage -/

/-- EP0's TX lane given up: its slots taken back, its pointer and selector at 0, its completions gone, EP0 Idle
(R281). -/
def ep0TxDropped (s : State) : State :=
  { s with
    ep := { s.ep with ep0 := { s.ep.ep0 with odd := ⟨s.ep.ep0.odd.rx, false⟩, callback := none, phase := .idle } }
    bdt := { s.bdt with ep0 := { s.bdt.ep0 with tx :=
      ⟨{ s.bdt.ep0.tx.even with own := false }, { s.bdt.ep0.tx.odd with own := false }⟩ } }
    sie := { s.sie with
      odd := { s.sie.odd with ep0 := ⟨s.sie.odd.ep0.rx, false⟩ }
      tokq := s.sie.tokq.filter fun q => !(q.ep.toNat == 0 && q.dir == .tx) } }

theorem ep0EarlyStatus_eq (s : State) : ep0EarlyStatus s = ep0RxArmed (ep0TxDropped s) (ep0TxDropped s).ep.ep0 := rfl

section
variable {s t u : State} {e : EpId} {d : Dir} {k : Bool} {cb : Option Callback}

theorem same_ep0TxDropped {f : EpId} (hf : f ≠ .ep0) : Same s (ep0TxDropped s) f :=
  same_of (EpBank.get_ep0 _ _ hf) (EpBank.get_ep0 _ _ hf) (EpBank.get_ep0 _ _ hf) fun g =>
    (queueOf_dropTx _ f g).trans (if_neg fun h => hf h.1)

theorem lane_ep0TxDropped_rx (s : State) : lane (ep0TxDropped s) .ep0 .rx = lane s .ep0 .rx := by
  have hq : queueOf (ep0TxDropped s).sie.tokq .ep0 .rx = queueOf s.sie.tokq .ep0 .rx :=
    (queueOf_dropTx _ .ep0 .rx).trans (if_neg (by decide))
  simp [lane, hq]
  exact ⟨rfl, rfl, rfl⟩

theorem free_ep0TxDropped (s : State) : (lane (ep0TxDropped s) .ep0 .tx).Free :=
  ⟨fun k => by cases k <;> rfl, (queueOf_dropTx _ .ep0 .tx).trans (if_pos ⟨rfl, rfl⟩), rfl⟩

theorem SlotInv.txDropped (h : SlotInv s) (hp : s.ep.ep0.phase ≠ .stall) : SlotInv (ep0TxDropped s) := by
  refine slotInv_of_ep (s := s) (e := .ep0) (h.queueOk.sublist rfl List.filter_sublist (fun _ => rfl) rfl) rfl
    (fun f _ => h.epOk f) (fun _ => same_ep0TxDropped)
    ⟨recordOk_ep0 h.ep0On (show Phase.idle ∈ ep0Phases by decide), fun g => ?_⟩
  cases g with
  | rx =>
    rw [lane_ep0TxDropped_rx]
    exact ((h.epOk .ep0).lane .rx).rephase hp nofun (show Phase.idle ∈ ep0Phases by decide)
  | tx =>
    refine ⟨fun k => ?_, .inl (free_ep0TxDropped s)⟩
    have hst := (h.epOk .ep0).lane .tx |>.stall k
    have : ((lane (ep0TxDropped s) .ep0 .tx).slots.get k).stall = ((lane s .ep0 .tx).slots.get k).stall := by
      cases k <;> rfl
    rw [this, hst]
    exact ⟨fun hx => absurd hx.1 hp, fun hx => nomatch hx.1⟩

/-- After the SETUP handler's resynchronisation EP0 is quiet (R272). -/
theorem PoppedInv.resynced (h : PoppedInv u .ep0 .rx k) (hs : (slot u .ep0 .rx k).pid = pidSetup) (p : Setup) :
    SlotInv (setupResynced u p) ∧ Quiet (setupResynced u p) := by
  have hq := h.setup rfl rfl hs
  have hown : ∀ g k, (slot (setupResynced u p) .ep0 g k).own = false := fun g k => by cases g <;> cases k <;> rfl
  have hstall : ∀ g k, (slot (setupResynced u p) .ep0 g k).stall = false := fun g k => by cases g <;> cases k <;> rfl
  have hempty : queueOf u.sie.tokq .ep0 .tx = [] := by
    rw [queueOf, List.filter_eq_nil_iff]
    intro c hc; simp [ofEp, EpId.num, hq c hc]
  have hptr : (lane u .ep0 .tx).ptr = (lane u .ep0 .tx).sel := by
    rcases (h.other .tx (by decide)).state with hf | ⟨-, hf | ⟨hf, -⟩⟩
    · exact hf.ptr
    · exact hf.ptr
    · obtain ⟨c, hc, -⟩ := hf.queue
      rw [show (lane u .ep0 .tx).queue = [] from hempty] at hc; cases hc
  have hrx : (lane (setupResynced u p) .ep0 .rx).Free := ⟨hown .rx, h.flipped.queue, h.flipped.ptr⟩
  have htx : (lane (setupResynced u p) .ep0 .tx).Free := ⟨hown .tx, hempty, hptr⟩
  refine ⟨slotInv_of_ep (s := u) (e := .ep0) (queueOk_noEp0 h.queue.depth hq) rfl h.others
    (fun f hf => same_of (EpBank.get_ep0 _ _ hf) (EpBank.get_ep0 _ _ hf) rfl fun _ => rfl)
    ⟨recordOk_ep0 (h.record.on rfl) (show Phase.idle ∈ ep0Phases by decide), fun g => ?_⟩, hrx, htx, rfl, hq⟩
  refine ⟨fun k => ?_, .inl (by cases g; exacts [hrx, htx])⟩
  rw [← slot_eq, hstall]
  exact ⟨nofun, fun hx => nomatch hx.1⟩

/-! ## Requests and stages -/

/-- The endpoints that are not rebuilt are left alone (R329). -/
theorem same_allRebuilt (b : Bool) (dev : DeviceState) {f : EpId} (hf : ¬ Other s.cfg f) :
    Same s (setDev (allRebuilt s b) dev) f := by
  refine same_of ?_ ?_ ?_ fun g => queueOf_filter_keep fun c hc _ => ?_
  · simp only [allRebuilt, setDev_ep, EpBank.get_tabulate, if_neg hf]
  · simp only [allRebuilt, setDev_bdt, EpBank.get_tabulate, if_neg hf]
  · simp only [allRebuilt, setDev_sie, EpBank.get_tabulate, if_neg hf]
  · have : ¬ (1 ≤ c.ep.toNat ∧ c.ep.toNat < s.cfg.numEp) := fun hx =>
      hf ⟨fun h0 => by subst h0; rw [hc] at hx; exact absurd hx.1 (by decide), hc ▸ hx.2⟩
    simpa [-not_and, not_and_or] using this

/-- A lane of a rebuilt endpoint is free, with no stall bit (R330). -/
theorem free_allRebuilt (b : Bool) (dev : DeviceState) {f : EpId} (hf : Other s.cfg f) (g : Dir) :
    (lane (setDev (allRebuilt s b) dev) f g).Free ∧
      ∀ k, ((lane (setDev (allRebuilt s b) dev) f g).slots.get k).stall = false := by
  have hslots : (lane (setDev (allRebuilt s b) dev) f g).slots = (slotsFreed (s.bdt.get f)).get g := by
    simp only [lane, slots, setDev_bdt, allRebuilt, EpBank.get_tabulate, if_pos hf]
  have hq : (lane (setDev (allRebuilt s b) dev) f g).queue = [] := queueOf_filter_drop fun c hc _ => by
    have : f.num ≠ 0 := fun h0 => hf.1 (EpId.num_inj h0)
    simp [hc, hf.2]; omega
  refine ⟨⟨fun k => ?_, hq, ?_⟩, fun k => ?_⟩
  · rw [hslots]; cases g <;> cases k <;> rfl
  · simp only [lane, setDev_ep, setDev_sie, allRebuilt, EpBank.get_tabulate, if_pos hf]; cases g <;> rfl
  · rw [hslots]; cases g <;> cases k <;> rfl

/-- The other endpoints built or torn down (R329, R330). -/
theorem SlotInv.rebuilt (h : SlotInv s) (b : Bool) (dev : DeviceState) : SlotInv (setDev (allRebuilt s b) dev) := by
  have h0 := same_allRebuilt (s := s) b dev (f := .ep0) (fun hx => hx.1 rfl)
  refine slotInv_iff.2 ⟨h.queueOk.sublist rfl List.filter_sublist (fun k => ?_) rfl, fun f => ?_⟩
  · rw [slot_eq, slot_eq, h0.lane]
  · by_cases hf : Other s.cfg f
    · have hget : (setDev (allRebuilt s b) dev).ep.get f = epRebuilt (s.ep.get f) b := by
        simp only [setDev_ep, allRebuilt, EpBank.get_tabulate, if_pos hf]
      refine ⟨?_, fun g => ?_⟩
      · rw [hget]
        exact ⟨fun hx => absurd hx hf.1, by simp [LegalPhase, legalPhases, hf.1, epRebuilt], fun _ => rfl⟩
      · obtain ⟨hfree, hst⟩ := free_allRebuilt (s := s) b dev hf g
        rw [hget]
        refine ⟨fun k => ?_, .inl hfree⟩
        rw [hst]; exact ⟨nofun, fun hx => nomatch hx.1⟩
    · exact (h.epOk f).same rfl (same_allRebuilt b dev hf)

theorem SlotInv.request (h : SlotInv s)
    (hen : s.dev.conn = .configured → ∀ e, Other s.cfg e → (s.ep.get e).enabled = true) (hr : Request s t cb) :
    SlotInv t := by
  cases hr with
  | calm hc | address hc => exact h.calm hc
  | halt hcf ho hp => exact h.halt ho (hen hcf _ ho) hp
  | configure | deconfigure => exact h.rebuilt _ _

/-- A quiet EP0 stays as it is. -/
theorem Quiet.same (h : Quiet s) (hs : Same s t .ep0) (hq : t.sie.tokq.Sublist s.sie.tokq) : Quiet t :=
  ⟨by rw [hs.lane]; exact h.rx, by rw [hs.lane]; exact h.tx, by rw [← h.phase]; exact congrArg _ hs.record,
    fun c hc => h.queue c (hq.subset hc)⟩

theorem same_epHalted (st : Bool) (p : Phase) {i f : EpId} (hf : f ≠ i) : Same s (epHalted s i st p) f := by
  refine same_of ?_ ?_ ?_ fun g => (queueOf_purged s i f g).trans (if_neg hf) <;>
    simp [epHalted, epReinit, EpBank.get_set, hf]

/-- A request leaves EP0 alone (R310). -/
theorem Request.same_ep0 (hr : Request s t cb) : Same s t .ep0 := by
  cases hr with
  | calm hc | address hc => exact hc.same .ep0
  | halt _ ho => exact same_epHalted _ _ ho.1.symm
  | configure | deconfigure => exact same_allRebuilt _ _ fun hx => hx.1 rfl

theorem Quiet.request (h : Quiet s) (hr : Request s t cb) : Quiet t := by
  refine h.same hr.same_ep0 ?_
  cases hr with
  | calm hc | address hc => rw [hc.tokq]
  | halt | configure | deconfigure => exact List.filter_sublist

/-- EP0's record at the start of a data stage to the host (`dataInStage`, R274). -/
def dataInRecord (s : State) (a : Addr) (n : Nat) (cb : Option Callback) : EndpointState :=
  { s.ep.ep0 with
    ptr := a, remaining := BitVec.ofNat 16 n, xferred := 0, callback := cb
    phase := if n < s.cfg.ep0Mps then .lastIn else .dataIn }

theorem SlotInv.stage (h : SlotInv s) (hq : Quiet s) (hs : Stage s cb t) : SlotInv t := by
  have hne : s.ep.ep0.phase ≠ .stall := by rw [hq.phase]; decide
  cases hs with
  | stall c => exact h.stalled hq.rx c
  | noData =>
    exact h.bothArmed (x := { s.ep.ep0 with callback := cb, phase := .statusIn }) hq.rx hq.tx h.ep0On rfl hne rfl
      (.inr (.inr rfl)) _ 0
  | @dataIn a n hn =>
    exact h.bothArmed (x := dataInRecord s a n cb) hq.rx hq.tx h.ep0On rfl hne rfl
      (by simp only [dataInRecord]; split <;> simp) a _
  | dataOut => exact h.rxArmed (p := .dataOut) hq.rx hq.tx h.ep0On rfl hne rfl (by decide) (by decide)

/-- A stage queues nothing. -/
theorem Stage.queue (hs : Stage s cb t) : t.sie.tokq.Sublist s.sie.tokq := by
  cases hs with
  | stall => exact List.filter_sublist
  | noData | dataIn | dataOut => exact .refl _

/-- The tokens released while nothing of EP0 is queued (R173). -/
theorem SlotInv.tokensFree (h : SlotInv s) (hq : ∀ c ∈ s.sie.tokq, c.ep.toNat ≠ 0) : SlotInv (tokensFree s) :=
  slotInv_iff.2 ⟨queueOk_noEp0 h.depth hq, fun e => ⟨(h.epOk e).record, (h.epOk e).lane⟩⟩

/-! ## Completions served -/

/-- The phase an armed IN packet leaves serves the lane that was served in DataIn (R231). -/
theorem active_inPhase {c : Params} (h : ActivePhase c e .tx .dataIn) (n : Nat) :
    ActivePhase c e .tx (inPhase c e n) ∧ inPhase c e n ≠ .stall := by
  unfold inPhase
  split
  · refine ⟨?_, by decide⟩
    by_cases h0 : e = .ep0
    · subst h0; exact active_ep0Tx.2 (.inr (.inl rfl))
    · exact (active_iff h0).2 ⟨((active_iff h0).1 h).1, by decide⟩
  · exact ⟨h, by decide⟩

/-- The phase after the last IN packet (R235). -/
theorem legal_inEnd {c : Params} {p q : Phase}
    (h : (p = .lastIn ∧ q = if e = .ep0 then .statusOut else .idle) ∨ (p = .statusIn ∧ q = .idle)) :
    LegalPhase c e q ∧ q ≠ .stall := by
  by_cases h0 : e = .ep0
  · subst h0
    rcases h with ⟨-, rfl⟩ | ⟨-, rfl⟩ <;> exact ⟨show _ ∈ ep0Phases by decide, by decide⟩
  · have hq : q = .idle := by simpa [h0] using h.imp And.right And.right
    subst hq
    exact ⟨by simp [LegalPhase, legalPhases, h0], by decide⟩

theorem PoppedInv.served (h : PoppedInv u e d k) (hen : (u.ep.get e).enabled = true)
    (hcf : u.dev.conn = .configured → ∀ f, Other u.cfg f → (u.ep.get f).enabled = true)
    (hs : Served u e d k t) : SlotInv t := by
  cases hs with
  | inNext hp =>
    obtain ⟨ha, hne⟩ := active_inPhase (hp ▸ h.active) _
    exact h.next hen (fun _ => rfl) _ ha (active_legal ha) hne
  | inEnd _ hq =>
    obtain ⟨hl, hne⟩ := legal_inEnd (c := u.cfg) hq
    exact h.finish hen (fun _ => rfl) _ hl hne
  | outNext h0 hp =>
    have ha := h.active
    rw [hp] at ha
    exact h.next hen (fun hx => absurd hx h0) _ ha (active_legal ha) (by decide)
  | outEnd h0 =>
    exact h.finish hen (fun hx => absurd hx h0) _ (by simp [LegalPhase, legalPhases, h0]) (by decide)
  | outStall c => exact h.flip.1.stalled h.flip.2 c
  | outStatus hp =>
    have hp : (ep0OutFlipped u).ep.ep0.phase = .statusOut := hp
    exact h.flip.1.rxArmed (p := .idle) h.flip.2 (h.flip.1.free_ep0Tx hp (by decide)) hen rfl (hp.trans_ne (by decide))
      rfl (by decide) (by decide)
  | outEarly hp =>
    have hne : u.ep.ep0.phase ≠ .stall := by rcases hp with hp | hp <;> rw [hp] <;> decide
    have hrx : (lane (ep0TxDropped (ep0OutFlipped u)) .ep0 .rx).Free := by
      rw [lane_ep0TxDropped_rx]; exact h.flip.2
    rw [ep0EarlyStatus_eq]
    exact (h.flip.1.txDropped hne).rxArmed (p := .idle) hrx (free_ep0TxDropped _) hen rfl nofun rfl (by decide)
      (by decide)
  | @outData _ v n hp hc =>
    have hv := h.flip.1.calm hc
    have hp : v.ep.ep0.phase = .dataOut := by rw [hc.ep]; exact hp
    have hrx : (lane v .ep0 .rx).Free := by rw [(hc.same .ep0).lane]; exact h.flip.2
    exact hv.rxArmed hrx (hv.free_ep0Tx hp (by decide)) hv.ep0On rfl (hp.trans_ne (by decide)) hp (by decide)
      (by decide)
  | @outDataEnd _ v n hp hc =>
    have hv := h.flip.1.calm hc
    have hp : v.ep.ep0.phase = .dataOut := by rw [hc.ep]; exact hp
    have hrx : (lane v .ep0 .rx).Free := by rw [(hc.same .ep0).lane]; exact h.flip.2
    refine SlotInv.ran ?_ .ep0 _
    exact hv.bothArmed (x := { advance v.ep.ep0 n with callback := none, phase := .statusIn }) hrx
      (hv.free_ep0Tx hp (by decide)) hv.ep0On rfl (hp.trans_ne (by decide)) rfl (.inr (.inr rfl)) _ 0
  | @setup _ p v w cb hpid hr hst =>
    obtain ⟨ha, hq⟩ := h.resynced hpid p
    have hv := ha.request (fun hc f hf => by
      rw [show (setupResynced u p).ep.get f = u.ep.get f from EpBank.get_ep0 _ _ hf.1]; exact hcf hc f hf) hr
    have hqv := hq.request hr
    exact (hv.stage hqv hst).tokensFree fun c hc => hqv.queue c (hst.queue.subset hc)

/-! ## The SIE -/

/-- The lane of a transaction the SIE completes is armed, at the slot completed (R44). -/
theorem Completes.armed (h : SlotInv s) {x : Slot} {b : Bool} (hc : Completes s e d k x b) :
    ActivePhase s.cfg e d (s.ep.get e).phase ∧ (lane s e d).Armed ∧ k = (lane s e d).sel := by
  rcases ((h.epOk e).lane d).state with hf | ⟨ha, hf | ⟨hf, -⟩⟩
  · exact absurd hc.owned (by rw [slot_eq, hf.own]; decide)
  · exact ⟨ha, hf, (hf.own k).1 hc.owned⟩
  · exact absurd hc.owned (by rw [slot_eq, hf.own]; decide)

theorem ofNat_num (e : EpId) : (BitVec.ofNat 4 e.num).toNat = e.num := by
  have := e.num_lt
  simp only [BitVec.toNat_ofNat]; omega

/-- The completion queued last (R165). -/
theorem queueOf_complete (x : Slot) (b : Bool) (f : EpId) (g : Dir) :
    queueOf (suspend b (complete s e d k x)).sie.tokq f g =
      queueOf s.sie.tokq f g ++ if f = e ∧ g = d then [⟨BitVec.ofNat 4 e.num, d, k⟩] else [] := by
  have hn : (e.num = f.num ∧ d = g) = (f = e ∧ g = d) :=
    propext ⟨fun h => ⟨EpId.num_inj h.1.symm, h.2.symm⟩, fun h => ⟨h.1 ▸ rfl, h.2.symm⟩⟩
  refine (queueOf_append _ _ _ _).trans ?_
  simp only [queueOf_cons, ofNat_num, hn]
  rfl

theorem slot_complete (x : Slot) (b : Bool) (f : EpId) (g : Dir) (j : Bool) :
    slot (suspend b (complete s e d k x)) f g j =
      if f = e ∧ g = d ∧ j = k then { x with own := false } else slot s f g j := slot_setSlot s e f d g k j _

/-- Every other lane is left alone by a completed transaction. -/
theorem lane_complete_other (x : Slot) (b : Bool) {f : EpId} {g : Dir} (h : ¬ (f = e ∧ g = d)) :
    lane (suspend b (complete s e d k x)) f g = lane s f g := by
  have hptr : ((suspend b (complete s e d k x)).sie.odd.get f).get g = (s.sie.odd.get f).get g := by
    refine (congrArg (DirPair.get · g) (EpBank.get_set s.sie.odd e f _)).trans ?_
    by_cases hf : f = e
    · subst hf
      have hg : g ≠ d := fun hg => h ⟨rfl, hg⟩
      simp [DirPair.get_set, hg]
    · simp [hf]
  have hslots : slots (suspend b (complete s e d k x)) f g = slots s f g :=
    (slots_setSlots s e f d g _).trans (if_neg h)
  simp only [lane, hptr, hslots, queueOf_complete, if_neg h, List.append_nil]
  rfl

/-- A transaction completed by the SIE leaves its lane done (R165). -/
theorem Completes.done (h : SlotInv s) {x : Slot} {b : Bool} (hc : Completes s e d k x b) :
    (lane (suspend b (complete s e d k x)) e d).Done e d (s.ep.get e).phase := by
  obtain ⟨hact, harm, hk⟩ := hc.armed h
  have hx : (lane (suspend b (complete s e d k x)) e d).slots.get (lane s e d).sel = { x with own := false } := by
    rw [← slot_eq, slot_complete, if_pos ⟨rfl, rfl, hk.symm⟩]
  refine ⟨fun j => ?_, ⟨⟨BitVec.ofNat 4 e.num, d, k⟩, ?_, hk⟩, ?_, ?_, fun hp hst => ?_⟩
  · rw [← slot_eq, slot_complete]
    split
    · rfl
    · rename_i hj
      rw [← Bool.not_eq_true, slot_eq, harm.own, ← hk]
      exact fun hx => hj ⟨rfl, rfl, hx⟩
  · refine (queueOf_complete x b e d).trans ?_
    rw [if_pos ⟨rfl, rfl⟩, show queueOf s.sie.tokq e d = [] from harm.queue]
    rfl
  · refine (congrArg (DirPair.get · d) (EpBank.get_set_self s.sie.odd e _)).trans ?_
    rw [DirPair.get_set_self, hk]
    rfl
  · rw [show (lane (suspend b (complete s e d k x)) e d).sel = (lane s e d).sel from rfl, hx]
    rcases hc.kind with ⟨hd, hp, -⟩ | ⟨hd, hp, -⟩ | ⟨h0, hd, hp, -⟩
    · exact .inl ⟨hd, hp⟩
    · exact .inr (.inl ⟨hd, hp⟩)
    · exact .inr (.inr ⟨hd, hp, h0⟩)
  · rw [show (lane (suspend b (complete s e d k x)) e d).sel = (lane s e d).sel from rfl, hx] at hp
    have hp : x.pid = pidOut := hp
    have hdir : e = .ep0 ∨ dirOf s.cfg e = d := or_iff_not_imp_left.2 fun h0 => ((active_iff h0).1 hact).1
    have hs : x.stall = true := hc.stall.trans ((h.stall e d k).2 ⟨hst, hdir⟩)
    rcases hc.kind with ⟨-, hq, -⟩ | ⟨-, -, hq, -⟩ | ⟨-, -, hq, -⟩
    · rw [hp] at hq; exact absurd hq (by decide)
    · rw [hs] at hq; cases hq
    · rw [hp] at hq; exact absurd hq (by decide)

/-- The queue after a completed transaction: room was left, and a SETUP is last and suspends the tokens (R162). -/
theorem QueueOk.complete (h : SlotInv s) {x : Slot} {b : Bool} (hc : Completes s e d k x b) :
    QueueOk (suspend b (complete s e d k x)) := by
  obtain ⟨-, harm, -⟩ := hc.armed h
  have hq : (suspend b (Machine.complete s e d k x)).sie.tokq = s.sie.tokq ++ [⟨BitVec.ofNat 4 e.num, d, k⟩] := rfl
  refine ⟨by rw [hq, List.length_append]; exact hc.room, fun q c r hs h0 hd hp => ?_⟩
  rw [hq] at hs
  rcases List.eq_nil_or_concat r with rfl | ⟨r, y, rfl⟩
  · obtain ⟨-, hx⟩ := List.append_inj' hs rfl
    obtain rfl := List.singleton_inj.1 hx
    obtain rfl : e = .ep0 := EpId.num_inj ((ofNat_num e).symm.trans h0)
    obtain rfl : d = .rx := hd
    rw [slot_complete, if_pos ⟨rfl, rfl, rfl⟩] at hp
    refine ⟨rfl, ?_⟩
    rcases hc.kind with ⟨hx, -⟩ | ⟨-, hx, -⟩ | ⟨-, -, -, hb⟩
    · cases hx
    · exact absurd (hp.symm.trans hx) (by decide)
    · exact hb
  · have hs : s.sie.tokq = q ++ c :: r := by
      rw [List.concat_eq_append, ← List.cons_append, ← List.append_assoc] at hs
      exact (List.append_inj' hs rfl).1
    have hm : c ∈ queueOf s.sie.tokq .ep0 .rx := mem_queueOf.2 ⟨by simp [hs], h0, hd⟩
    have hne : ¬ (EpId.ep0 = e ∧ Dir.rx = d) := by
      rintro ⟨rfl, rfl⟩
      rw [show queueOf s.sie.tokq .ep0 .rx = [] from harm.queue] at hm
      cases hm
    rw [slot_complete, if_neg fun hx => hne ⟨hx.1, hx.2.1⟩] at hp
    exact absurd ((h.setupLast q c r hs h0 hd hp).2.symm.trans hc.free) (by decide)

/-- A transaction completed by the SIE (R165). -/
theorem SlotInv.transact (h : SlotInv s) {x : Slot} {b : Bool} (hc : Completes s e d k x b) :
    SlotInv (suspend b (complete s e d k x)) := by
  obtain ⟨hact, harm, hk⟩ := hc.armed h
  refine slotInv_of_ep (s := s) (e := e) (.complete h hc) rfl (fun f _ => h.epOk f)
    (fun f hf => ⟨rfl, fun g => lane_complete_other x b fun hx => hf hx.1⟩) ⟨(h.epOk e).record, fun g => ?_⟩
  by_cases hg : g = d
  · subst hg
    refine ⟨fun j => ?_, .inr ⟨hact, .inr ⟨hc.done h, hc.onMap⟩⟩⟩
    rw [← slot_eq, slot_complete]
    split
    · rename_i hj
      obtain ⟨-, -, rfl⟩ := hj
      show x.stall = true ↔ _
      rw [hc.stall]
      exact h.stall e g j
    · exact h.stall e g j
  · rw [lane_complete_other x b fun hx => hg hx.2]
    exact (h.epOk e).lane g

/-! ## INIT and the bus reset -/

/-- The records, the SIE's pointers and the queue are at their initial values and no slot is owned or stalled: the state
after INIT, and after a bus reset but for EP0's RX slot (R373, R480). -/
structure Fresh (s : State) : Prop where
  ep : s.ep = EpBank.tabulate EndpointState.powerOn
  odd : s.sie.odd = EpBank.tabulate fun _ => ⟨false, false⟩
  tokq : s.sie.tokq = []
  own : ∀ e d k, (slot s e d k).own = false
  stall : ∀ e d k, (slot s e d k).stall = false

theorem Fresh.get (h : Fresh s) (e : EpId) : s.ep.get e = EndpointState.powerOn e := by rw [h.ep, EpBank.get_tabulate]

theorem Fresh.free (h : Fresh s) (e : EpId) (d : Dir) : (lane s e d).Free := by
  refine ⟨h.own e d, by rw [lane, h.tokq]; rfl, ?_⟩
  show (s.sie.odd.get e).get d = (s.ep.get e).odd.get d
  rw [h.odd, EpBank.get_tabulate, h.get]; rfl

theorem Fresh.slotInv (h : Fresh s) : SlotInv s := by
  refine slotInv_iff.2 ⟨queueOk_noEp0 (by simp [h.tokq]) (by simp [h.tokq]), fun e => ⟨?_, fun d => ?_⟩⟩
  · rw [h.get]
    exact ⟨fun h0 => by simp [EndpointState.powerOn, h0], List.mem_of_elem_eq_true (by cases e <;> rfl), fun _ => rfl⟩
  · rw [h.get]
    exact ⟨fun k => by rw [← slot_eq, h.stall]; exact ⟨nofun, fun hx => nomatch hx.1⟩, .inl (h.free e d)⟩

theorem fresh_powerOnAgain (s : State) : Fresh (powerOnAgain s) := by
  have hslot : ∀ e d k, slot (powerOnAgain s) e d k = Slot.powerOn := by
    intro e d k
    simp only [slot, slots, powerOnAgain, State.powerOn, EpBank.get_tabulate]
    cases d <;> cases k <;> rfl
  exact ⟨rfl, rfl, rfl, fun e d k => by rw [hslot]; rfl, fun e d k => by rw [hslot]; rfl⟩

/-- The state of a bus reset before EP0's RX slot is armed (R373). -/
def busResetRest (s : State) : State :=
  { setDev (sieResetAll s) (busResetDev s.cfg s.dev) with
    bdt := EpBank.tabulate fun e => busResetSlots (s.bdt.get e)
    ep := EpBank.tabulate EndpointState.powerOn }

theorem execEvUsbrst_eq (s : State) :
    execEvUsbrst s = .next (ep0RxArmed (busResetRest s) (busResetRest s).ep.ep0) := rfl

theorem fresh_busResetRest (s : State) : Fresh (busResetRest s) := by
  have hslot : ∀ e d k, slot (busResetRest s) e d k = busResetSlot (slot s e d k) := by
    intro e d k
    simp only [slot, slots, busResetRest, EpBank.get_tabulate]
    cases d <;> cases k <;> rfl
  exact ⟨rfl, rfl, rfl, fun e d k => by rw [hslot]; rfl, fun e d k => by rw [hslot]; rfl⟩

/-! ## The step -/

/-- The slot invariants read no register. -/
theorem SlotInv.setDev (h : SlotInv s) (dev : DeviceState) : SlotInv (setDev s dev) :=
  ⟨h.depth, h.ep0On, h.legal, h.off, h.owned, h.ownedPhase, h.single, h.exclusive, h.pointer, h.stall, h.queue,
    h.setupLast⟩

/-- The slot invariants read no callback. -/
theorem SlotInv.setCb (h : SlotInv s) (i : EpId) (cb : Option Callback) : SlotInv (setCb s i cb) := by
  have hget : (Machine.setCb s i cb).ep.get i = { s.ep.get i with callback := cb } := EpBank.get_set_self s.ep i _
  have hi := h.epOk i
  refine slotInv_of_ep (s := s) (e := i) (h.queueOk.sublist rfl (.refl _) (fun _ => rfl) rfl) rfl (fun f _ => h.epOk f)
    (fun f hf => same_of ((EpBank.get_set s.ep i f _).trans (if_neg hf)) rfl rfl fun _ => rfl) ⟨?_, fun g => ?_⟩
  · rw [hget]; exact ⟨hi.record.on, hi.record.legal, hi.record.off⟩
  · have hl : lane (Machine.setCb s i cb) i g = lane s i g := by simp only [lane, hget]; rfl
    rw [hget, hl]; exact hi.lane g

/-- The completion taken out of the queue is an expected one: none is dropped (R372). -/
theorem SlotInv.takes (h : SlotInv s) {c : Completion} {q : List Completion}
    (ht : takeCompletion s.sie.tokq = some (c, q)) : ∃ e, c.ep.toNat = e.num ∧ Expected s e c.dir c.odd := by
  obtain ⟨as, bs, hs, -⟩ := takeCompletion_split ht
  have hc : c ∈ s.sie.tokq := by simp [hs]
  obtain ⟨e, he, -⟩ := mem_lane hc
  exact ⟨e, he, h.expected hc he⟩

/-- The other endpoints are enabled while the device is configured, so that a halted endpoint is (R57). -/
theorem SlotInv.effect (h : SlotInv s)
    (hcf : s.dev.conn = .configured → ∀ f, Other s.cfg f → (s.ep.get f).enabled = true) (he : Effect s t) :
    SlotInv t := by
  cases he with
  | none => exact h
  | busReset ht =>
    obtain rfl := Host.Outcome.next.inj ((execEvUsbrst_eq s).symm.trans ht)
    have hf := fresh_busResetRest s
    exact hf.slotInv.rxArmed (p := .idle) (hf.free .ep0 .rx) (hf.free .ep0 .tx) rfl rfl nofun rfl (by decide)
      (by decide)
  | sleep | resume => exact h.setDev _
  | register => exact h.setCb _ _
  | start buf len ho hen hd hp => exact h.start ho hen hd hp buf len
  | halt ho hen hp => exact h.halt ho hen hp
  | transact hc => exact h.transact hc
  | @drop c _ ht hx =>
    obtain ⟨e, he, hc⟩ := h.takes ht
    exact absurd hc (hx e he)
  | @serve c q e t ht hn hx hs => exact (h.popped ht hn).served hx.completed.1 hcf hs

end

/-- Settles O52: lane by lane, every effect of a step moves the lanes of one endpoint from free to armed, from armed to
done, or from done to free. -/
theorem slotInvariantKept : Obligations.SlotInvariantKept := by
  intro s t hd he hs h
  obtain ⟨-, ⟨-, a, -, ht⟩ | ⟨-, a, b, ha, hab, hb⟩⟩ := step_cases h
  · exact (fresh_powerOnAgain a).slotInv.calm ht
  · refine ((hs.calm ha).effect (fun hc f hf => ?_) hab).calm hb
    rw [ha.dev.conn] at hc
    rw [ha.cfg] at hf
    rw [ha.ep]
    exact (he.each f hf.1).2 ⟨hd.config.2 (.inl hc), hf.2⟩

end Sys2Proof.Machine
end

section
/-! PROOFS. The arming invariants (R55, R56, R58) lane by lane: a served lane is armed at its cursor or has a completion
queued, EP0's RX at its internal buffer. -/

namespace Sys2Proof.Machine

/-! ## Arming, lane by lane -/

/-- The data phases, in which an armed slot is at the cursor (R58). -/
abbrev DataPhase (p : Phase) : Prop := p = .dataIn ∨ p = .lastIn ∨ p = .dataOut

/-- The arming invariants of one lane of an endpoint with record `x`. -/
structure LaneArm (c : Params) (e : EpId) (d : Dir) (x : EndpointState) (l : Lane) : Prop where
  armed : ActivePhase c e d x.phase → l.queue = [] → (l.slots.get l.sel).own = true
  cursor : ∀ k, (l.slots.get k).own = true → (e = .ep0 → d = .tx) → DataPhase x.phase →
    (l.slots.get k).addr = x.ptr ∧ (l.slots.get k).bc = BitVec.ofNat 10 (min x.remaining.toNat (mps c e))
  rx : e = .ep0 → d = .rx → l.queue = [] → (l.slots.get l.sel).bc = BitVec.ofNat 10 c.ep0Mps ∧
    (l.slots.get l.sel).addr = bufAddr c .ep0 .rx l.sel

/-- Before the first bus reset: EP0 is Idle, nothing of it is owned or queued, and no token is suspended. -/
structure Unreset (s : State) : Prop where
  phase : s.ep.ep0.phase = .idle
  tokens : s.sie.tokenSuspended = false
  queue : ∀ d, (lane s .ep0 d).queue = []
  own : ∀ d k, ((lane s .ep0 d).slots.get k).own = false

/-- A SETUP of the lane is queued. -/
def Lane.SetupWaits (l : Lane) : Prop := ∃ c ∈ l.queue, (l.slots.get c.odd).pid = pidSetup

/-- The arming invariants, lane by lane. -/
structure Arming (s : State) : Prop where
  lanes : ∀ e, (e = .ep0 → s.dev.conn ≠ .attached) → ∀ d, LaneArm s.cfg e d (s.ep.get e) (lane s e d)
  unreset : s.dev.conn = .attached → Unreset s
  tokens : s.sie.tokenSuspended = true → (lane s .ep0 .rx).SetupWaits

theorem queued_zero_iff {s : State} {e : EpId} {d : Dir} : queued s e d = 0 ↔ (lane s e d).queue = [] := by
  rw [queued_eq, List.length_eq_zero_iff]

theorem setupWaits_iff {s : State} : (lane s .ep0 .rx).SetupWaits ↔
    ∃ c ∈ s.sie.tokq, c.ep = 0 ∧ c.dir = .rx ∧ (slot s .ep0 .rx c.odd).pid = pidSetup := by
  have h0 : ∀ c : Completion, c.ep.toNat = EpId.ep0.num ↔ c.ep = 0 := fun c =>
    ⟨fun h => BitVec.eq_of_toNat_eq h, fun h => by rw [h]; rfl⟩
  simp only [Lane.SetupWaits, slot_eq]
  constructor
  · rintro ⟨c, hc, hp⟩
    obtain ⟨hm, he, hd⟩ := mem_queueOf.1 hc
    exact ⟨c, hm, (h0 c).1 he, hd, hp⟩
  · rintro ⟨c, hm, he, hd, hp⟩
    exact ⟨c, mem_queueOf.2 ⟨hm, (h0 c).2 he, hd⟩, hp⟩

theorem armInv_iff {s : State} : ArmInv s ↔ Arming s := by
  constructor
  · intro h
    refine ⟨fun e he d => ⟨fun ha hq => h.armed e d ha he (queued_zero_iff.2 hq), h.cursor e d, ?_⟩, fun hc => ?_,
      fun ht => setupWaits_iff.2 (h.tokens ht)⟩
    · rintro rfl rfl hq
      exact h.rx (he rfl) (queued_zero_iff.2 hq)
    · obtain ⟨hp, ht, hl⟩ := h.attached hc
      exact ⟨hp, ht, fun d => queued_zero_iff.1 (hl d).1, fun d => (hl d).2⟩
  · intro h
    refine ⟨fun hc => ?_, fun hc hq => (h.lanes .ep0 (fun _ => hc) .rx).rx rfl rfl (queued_zero_iff.1 hq),
      fun e d ha he hq => (h.lanes e he d).armed ha (queued_zero_iff.1 hq), fun e d k ho => ?_,
      fun ht => setupWaits_iff.1 (h.tokens ht)⟩
    · obtain ⟨hp, ht, hq, ho⟩ := h.unreset hc
      exact ⟨hp, ht, fun d => ⟨queued_zero_iff.2 (hq d), ho d⟩⟩
    · by_cases hc : e = .ep0 → s.dev.conn ≠ .attached
      · exact (h.lanes e hc d).cursor k ho
      · push Not at hc
        obtain ⟨rfl, hc⟩ := hc
        exact absurd ((h.unreset hc).own d k) (by rw [← slot_eq, ho]; decide)

section
variable {c : Params} {e : EpId} {d : Dir} {x y : EndpointState} {l : Lane}

/-- A lane that is served in neither phase nor owned in a data phase has nothing to keep. -/
theorem LaneArm.unserved (h0 : e = .ep0 → d = .tx) (ha : ¬ ActivePhase c e d x.phase)
    (ho : DataPhase x.phase → ∀ k, (l.slots.get k).own = false) : LaneArm c e d x l :=
  ⟨fun hx => absurd hx ha, fun k hk _ hp => absurd hk (by rw [ho hp]; decide),
    fun he hd => by rw [h0 he] at hd; cases hd⟩

/-- A lane with a packet armed at the cursor in its free selector's slot. -/
theorem LaneArm.packet (h0 : e = .ep0 → d = .tx) (hl : ∀ k, (l.slots.get k).own = false) {z : Slot}
    (hz : z.own = true) (ha : DataPhase x.phase →
      z.addr = x.ptr ∧ z.bc = BitVec.ofNat 10 (min x.remaining.toNat (mps c e))) :
    LaneArm c e d x ⟨l.sel, l.ptr, l.slots.set l.sel z, l.queue⟩ := by
  refine ⟨fun _ _ => by simp [hz], fun k hk _ hp => ?_, fun he hd => by rw [h0 he] at hd; cases hd⟩
  simp only [HalfPair.get_set] at hk ⊢
  split at hk
  · rename_i hs; rw [if_pos hs]; exact ha hp
  · rw [hl] at hk; cases hk

/-- A lane with a completion queued. -/
theorem LaneArm.queued (hq : l.queue ≠ []) (hl : ∀ k, (l.slots.get k).own = false) : LaneArm c e d x l :=
  ⟨fun _ hx => absurd hx hq, fun k hk => absurd hk (by rw [hl]; decide), fun _ _ hx => absurd hx hq⟩

/-- EP0's RX lane with its selector's slot armed. -/
theorem LaneArm.ep0Rx (ho : (l.slots.get l.sel).own = true) (hb : (l.slots.get l.sel).bc = BitVec.ofNat 10 c.ep0Mps)
    (ha : (l.slots.get l.sel).addr = bufAddr c .ep0 .rx l.sel) : LaneArm c .ep0 .rx x l :=
  ⟨fun _ _ => ho, fun _ _ hx => (nomatch hx rfl), fun _ _ _ => ⟨hb, ha⟩⟩

/-- EP0's RX lane is armed whatever EP0's phase (R55). -/
theorem LaneArm.rephase (h : LaneArm c .ep0 .rx x l) (hx : x.phase ∈ ep0Phases) : LaneArm c .ep0 .rx y l :=
  ⟨fun _ => h.armed hx, fun _ _ hy => (nomatch hy rfl), h.rx⟩

end

/-! ## What a step leaves alone -/

section
variable {s t u v w : State} {e f : EpId} {d g : Dir} {k : Bool} {cb : Option Callback}

theorem LaneArm.same (h : LaneArm s.cfg f g (s.ep.get f) (lane s f g)) (hc : t.cfg = s.cfg) (hs : Same s t f) :
    LaneArm t.cfg f g (t.ep.get f) (lane t f g) := by
  rw [hc, hs.record, hs.lane]; exact h

theorem Unreset.same (h : Unreset s) (hb : t.sie.tokenSuspended = s.sie.tokenSuspended) (hs : Same s t .ep0) :
    Unreset t :=
  ⟨(congrArg EndpointState.phase hs.record).trans h.phase, hb.trans h.tokens, fun d => by rw [hs.lane]; exact h.queue d,
    fun d => by rw [hs.lane]; exact h.own d⟩

/-- The arming invariants after a change of no endpoint that keeps the device attached or not attached. -/
theorem Arming.congr (h : Arming s) (hc : t.cfg = s.cfg) (hconn : t.dev.conn = .attached ↔ s.dev.conn = .attached)
    (hb : t.sie.tokenSuspended = s.sie.tokenSuspended) (hs : ∀ f, Same s t f) : Arming t :=
  ⟨fun f hf d => (h.lanes f (fun h0 => (not_congr hconn).1 (hf h0)) d).same hc (hs f),
    fun hx => (h.unreset (hconn.1 hx)).same hb (hs .ep0),
    fun hx => by rw [(hs .ep0).lane]; exact h.tokens (hb.symm.trans hx)⟩

theorem Arming.calm (h : Arming s) (hc : Calm s t) : Arming t :=
  h.congr hc.cfg (by rw [hc.dev.conn]) hc.suspended hc.same

/-- A callback neither attaches nor detaches (R237, R322). -/
theorem Arming.ran (h : Arming s) (e : EpId) (cb : Option Callback) : Arming (callbackRan s e cb) := by
  by_cases hx : cb = some .commitAddress
  · subst hx
    refine h.congr rfl ?_ rfl (callbackRan_same s e _)
    simp only [callbackRan]
    split
    · rename_i hc; simp [hc.1]
    · split
      · rename_i hc; simp [hc.1]
      · rfl
  · exact h.calm (callbackRan_calm s e hx)

/-- The arming invariants after a change of one endpoint other than EP0. -/
theorem Arming.other (h : Arming s) (he : e ≠ .ep0) (hc : t.cfg = s.cfg) (hdev : t.dev = s.dev)
    (hb : t.sie.tokenSuspended = s.sie.tokenSuspended) (hs : ∀ f, f ≠ e → Same s t f)
    (hl : ∀ d, LaneArm t.cfg e d (t.ep.get e) (lane t e d)) : Arming t := by
  refine ⟨fun f hf d => ?_, fun hx => (h.unreset (hdev ▸ hx)).same hb (hs .ep0 he.symm),
    fun hx => by rw [(hs .ep0 he.symm).lane]; exact h.tokens (hb.symm.trans hx)⟩
  by_cases hfe : f = e
  · exact hfe ▸ hl d
  · exact (h.lanes f (hdev ▸ hf) d).same hc (hs f hfe)

/-- The arming invariants after the first bus reset. -/
theorem arming_of_lanes (hconn : s.dev.conn ≠ .attached) (hl : ∀ e d, LaneArm s.cfg e d (s.ep.get e) (lane s e d))
    (ht : s.sie.tokenSuspended = true → (lane s .ep0 .rx).SetupWaits) : Arming s :=
  ⟨fun e _ => hl e, fun hx => absurd hx hconn, ht⟩

/-! ## INIT, bus reset, starting and halting -/

theorem Fresh.laneArm (h : Fresh s) (h0 : e ≠ .ep0) (d : Dir) : LaneArm s.cfg e d (s.ep.get e) (lane s e d) := by
  have hp : (s.ep.get e).phase = .idle := by rw [h.get]; rfl
  exact .unserved (fun hx => absurd hx h0) (hp ▸ not_active_idle h0) fun _ => h.own e d

theorem arming_powerOnAgain (s : State) : Arming (powerOnAgain s) := by
  have h := fresh_powerOnAgain s
  exact ⟨fun e he d => h.laneArm (fun hx => he hx rfl) d,
    fun _ => ⟨rfl, rfl, fun d => (h.free .ep0 d).queue, h.own .ep0⟩, nofun⟩

/-- EP0's RX lane after it is armed (R232). -/
theorem laneArm_ep0RxArmed {x : EndpointState} (hodd : x.odd = s.ep.ep0.odd) (y : EndpointState) :
    LaneArm s.cfg .ep0 .rx y (lane (ep0RxArmed s x) .ep0 .rx) := by
  rw [lane_ep0RxArmed_rx hodd]
  have hsel : (lane s .ep0 .rx).sel = x.odd.rx := by rw [hodd]; rfl
  exact .ep0Rx (by simp [ep0RxSlot]) (by simp [ep0RxSlot]) (by simp [ep0RxSlot, hsel])

/-- EP0 with its RX lane armed, in a phase in which its TX lane, free, is not served (R232). -/
theorem laneArm_rxArmed {x : EndpointState} (hodd : x.odd = s.ep.ep0.odd) (htx : (lane s .ep0 .tx).Free)
    (hp : x.phase ≠ .dataIn ∧ x.phase ≠ .lastIn ∧ x.phase ≠ .statusIn) (g : Dir) :
    LaneArm s.cfg .ep0 g x (lane (ep0RxArmed s x) .ep0 g) := by
  cases g with
  | rx => exact laneArm_ep0RxArmed hodd x
  | tx =>
    rw [lane_ep0RxArmed_tx hodd]
    exact .unserved (fun _ => rfl) (fun ha => by have := active_ep0Tx.1 ha; tauto) fun _ => htx.own

/-- EP0 with both lanes armed, in a data phase with the TX slot at the cursor (R231, R232). -/
theorem laneArm_bothArmed {x : EndpointState} (hodd : x.odd = s.ep.ep0.odd) (htx : (lane s .ep0 .tx).Free) {a : Addr}
    {n : Nat} (hp : DataPhase x.phase → a = x.ptr ∧
      BitVec.ofNat 10 n = BitVec.ofNat 10 (min x.remaining.toNat (mps s.cfg .ep0))) (g : Dir) :
    LaneArm s.cfg .ep0 g x (lane (ep0Armed s x a n) .ep0 g) := by
  cases g with
  | rx => rw [lane_ep0Armed_rx]; exact laneArm_ep0RxArmed hodd x
  | tx =>
    rw [lane_ep0Armed_tx hodd]
    exact .packet (fun _ => rfl) htx.own rfl hp

theorem arming_busReset (s : State) : Arming (ep0RxArmed (busResetRest s) (busResetRest s).ep.ep0) := by
  have h := fresh_busResetRest s
  refine arming_of_lanes (show ConnState.default ≠ .attached by decide) (fun e d => ?_) nofun
  by_cases h0 : e = .ep0
  · subst h0
    exact laneArm_rxArmed rfl (h.free .ep0 .tx) ⟨nofun, nofun, nofun⟩ d
  · exact (h.laneArm h0 d).same rfl (same_ep0RxArmed _ h0)

theorem laneArm_packetArmed {x : EndpointState} (h0 : e = .ep0 → d = .tx)
    (hl : ∀ k, ((lane s e d).slots.get k).own = false) : LaneArm s.cfg e d x (lane (packetArmed s e d x) e d) := by
  rw [lane_packetArmed_self]
  exact .packet (l := ⟨x.odd.get d, (lane s e d).ptr, (lane s e d).slots, (lane s e d).queue⟩) h0 hl rfl
    fun _ => ⟨rfl, rfl⟩

/-- The direction an endpoint other than EP0 has not. -/
theorem LaneOk.laneArm {p : Phase} {x : EndpointState} {l : Lane} {c : Params} (h : LaneOk c e g p l) (h0 : e ≠ .ep0)
    (hd : dirOf c e ≠ g) : LaneArm c e g x l :=
  .unserved (fun hx => absurd hx h0) (not_active_other h0 hd _) fun _ => (h.free (not_active_other h0 hd p)).own

theorem Arming.start (ha : Arming s) (h : SlotInv s) {i : EpId} (ho : Other s.cfg i) (hd : dirOf s.cfg i = d)
    (hp : (s.ep.get i).phase = .idle) (buf : Addr) (len : BitVec 16) : Arming (transferBegun s i d buf len) := by
  have hget : (transferBegun s i d buf len).ep.get i = _ := EpBank.get_set_self s.ep i _
  refine ha.other ho.1 rfl rfl rfl (fun f hf => same_packetArmed s i d _ hf) fun g => ?_
  rw [hget]
  by_cases hg : g = d
  · subst hg
    exact laneArm_packetArmed (fun hx => absurd hx ho.1) (h.free_idle ho.1 hp g).own
  · refine lane_packetArmed_other s i d _ hg ▸ LaneOk.laneArm ((h.epOk i).lane g) ho.1 fun hx => hg (hx.symm.trans hd)

/-- A halted endpoint, and one whose halt has ended, is not served (R238, R239). -/
theorem laneArm_epHalted {i : EpId} (ho : Other s.cfg i) {st : Bool} {p : Phase} (hp : HaltForm st p) (g : Dir) :
    LaneArm s.cfg i g ((epHalted s i st p).ep.get i) (lane (epHalted s i st p) i g) := by
  have hget : ((epHalted s i st p).ep.get i).phase = p := congrArg EndpointState.phase (EpBank.get_set_self s.ep i _)
  have hn : ¬ ActivePhase s.cfg i g p ∧ ¬ DataPhase p := by
    rcases hp with ⟨-, rfl⟩ | ⟨-, rfl⟩
    · exact ⟨fun ha => transfer_ne_stall ((active_iff ho.1).1 ha).2 rfl, by decide⟩
    · exact ⟨not_active_idle ho.1, by decide⟩
  exact .unserved (fun hx => absurd hx ho.1) (by rw [hget]; exact hn.1) fun hx => absurd hx (by rw [hget]; exact hn.2)

theorem Arming.halt (h : Arming s) {i : EpId} {st : Bool} {p : Phase} (ho : Other s.cfg i) (hp : HaltForm st p) :
    Arming (epHalted s i st p) :=
  h.other ho.1 rfl rfl rfl (fun _ hf => same_epHalted st p hf) (laneArm_epHalted ho hp)

theorem Arming.setCb (h : Arming s) {i : EpId} (ho : i ≠ .ep0) (cb : Option Callback) : Arming (setCb s i cb) := by
  have hget : (Machine.setCb s i cb).ep.get i = { s.ep.get i with callback := cb } := EpBank.get_set_self s.ep i _
  refine h.other ho rfl rfl rfl
    (fun f hf => same_of ((EpBank.get_set s.ep i f _).trans (if_neg hf)) rfl rfl fun _ => rfl) fun g => ?_
  have hl : lane (Machine.setCb s i cb) i g = lane s i g := by simp only [lane, hget]; rfl
  rw [hget, hl]
  obtain ⟨h1, h2, h3⟩ := h.lanes i (fun hx => absurd hx ho) g
  exact ⟨h1, h2, h3⟩

/-! ## The SIE -/

theorem Arming.transact (ha : Arming s) (h : SlotInv s) {x : Slot} {b : Bool} (hc : Completes s e d k x b) :
    Arming (suspend b (complete s e d k x)) := by
  have hconn : e = .ep0 → s.dev.conn ≠ .attached := by
    rintro rfl hx
    exact absurd ((ha.unreset hx).own d k) (by rw [← slot_eq, hc.owned]; decide)
  refine ⟨fun f hf g => ?_, fun hx => ?_, fun hb => ?_⟩
  · by_cases hfg : f = e ∧ g = d
    · obtain ⟨rfl, rfl⟩ := hfg
      have hd := hc.done h
      obtain ⟨q, hq, -⟩ := hd.queue
      exact .queued (by rw [hq]; simp) hd.own
    · rw [lane_complete_other x b hfg]
      exact ha.lanes f hf g
  · have hu := ha.unreset hx
    have he : ∀ g, ¬ (EpId.ep0 = e ∧ g = d) := fun g hg => hconn hg.1.symm hx
    refine ⟨hu.phase, ?_, fun g => by rw [lane_complete_other x b (he g)]; exact hu.queue g,
      fun g => by rw [lane_complete_other x b (he g)]; exact hu.own g⟩
    rcases hc.kind with ⟨-, -, hb⟩ | ⟨-, -, -, hb⟩ | ⟨h0, -⟩
    · exact hb
    · exact hb
    · exact absurd hx (hconn h0)
  · have hb : b = true := hb
    rcases hc.kind with ⟨-, -, hx⟩ | ⟨-, -, -, hx⟩ | ⟨rfl, rfl, hp, -⟩
    · rw [hb] at hx; cases hx
    · rw [hb] at hx; cases hx
    · refine ⟨⟨BitVec.ofNat 4 EpId.ep0.num, .rx, k⟩, ?_, ?_⟩
      · show _ ∈ queueOf _ _ _
        rw [queueOf_complete, if_pos ⟨rfl, rfl⟩]
        exact List.mem_append_right _ (List.mem_singleton.2 rfl)
      · rw [← slot_eq, slot_complete, if_pos ⟨rfl, rfl, rfl⟩]; exact hp

end

end Sys2Proof.Machine
end

section
namespace Sys2Proof.Machine

/-! ## A completion taken out of the queue -/

/-- The arming invariants of `u` but for lane (e, d), whose completion has been taken out of the queue; if tokens are
suspended, the SETUP they wait for is still queued or is the one taken out (R162). -/
structure PoppedArm (u : State) (e : EpId) (d : Dir) (k : Bool) : Prop where
  lanes : ∀ f g, ¬ (f = e ∧ g = d) → (f = .ep0 → u.dev.conn ≠ .attached) →
    LaneArm u.cfg f g (u.ep.get f) (lane u f g)
  unreset : u.dev.conn = .attached → e ≠ .ep0 ∧ Unreset u
  waits : u.sie.tokenSuspended = true → ¬ (e = .ep0 ∧ d = .rx) → (lane u .ep0 .rx).SetupWaits
  taken : u.sie.tokenSuspended = true → e = .ep0 → d = .rx → (slot u .ep0 .rx k).pid = pidSetup

section
variable {s t u v w : State} {e f : EpId} {d g : Dir} {k : Bool} {cb : Option Callback}

theorem Arming.popped (ha : Arming s) (h : SlotInv s) {c : Completion} {q : List Completion}
    (ht : takeCompletion s.sie.tokq = some (c, q)) (he : c.ep.toNat = e.num) :
    PoppedArm (popped s q) e c.dir c.odd := by
  obtain ⟨as, bs, hs, -⟩ := takeCompletion_split ht
  obtain ⟨-, -, hq, -⟩ := h.done (by simp [hs]) he
  refine ⟨fun f g hfg hf => ?_, fun hx => ?_, fun hb hn => ?_, fun hb h0 hd => ?_⟩
  · rw [lane_popped_other ht he hfg]; exact ha.lanes f hf g
  · have hu := ha.unreset hx
    have h0 : e ≠ .ep0 := by
      rintro rfl
      rw [hu.queue] at hq; cases hq
    exact ⟨h0, hu.same rfl ⟨rfl, fun g => lane_popped_other ht he fun hx => h0 hx.1.symm⟩⟩
  · rw [lane_popped_other ht he fun hx => hn ⟨hx.1.symm, hx.2.symm⟩]; exact ha.tokens hb
  · subst h0
    obtain ⟨c', hm, hp⟩ := ha.tokens hb
    rw [← hd, hq] at hm
    obtain rfl := List.mem_singleton.1 hm
    exact hp

/-- A completion of EP0 is served only after the first bus reset. -/
theorem PoppedArm.reset (h : PoppedArm u .ep0 d k) : u.dev.conn ≠ .attached := fun hx => (h.unreset hx).1 rfl

theorem PoppedArm.same (h : PoppedArm u e d k) (hconn : f = .ep0 → u.dev.conn ≠ .attached) (hf : f ≠ e)
    (hc : t.cfg = u.cfg) (hs : Same u t f) (g : Dir) : LaneArm t.cfg f g (t.ep.get f) (lane t f g) :=
  (h.lanes f g (fun hx => hf hx.1) hconn).same hc hs

/-- The lane not served just now of the endpoint served, other than EP0's TX lane: EP0's RX, or the direction the
endpoint has not. -/
theorem PoppedArm.otherLane (h : PoppedArm u e d k) (hi : PoppedInv u e d k) (h1 : e = .ep0 → d = .tx) (hg : g ≠ d)
    (y : EndpointState) : LaneArm u.cfg e g y (lane u e g) := by
  by_cases h0 : e = .ep0
  · subst h0
    obtain rfl := h1 rfl
    cases g with
    | rx => exact (h.lanes .ep0 .rx (fun hx => hg hx.2) fun _ => h.reset).rephase (active_legal hi.active)
    | tx => exact absurd rfl hg
  · exact (hi.other g hg).laneArm h0 fun hx => hg (hx.symm.trans ((active_iff h0).1 hi.active).1)

/-- The arming invariants once the endpoint served, in another lane than EP0's RX, is armed or done. -/
theorem PoppedArm.update (h : PoppedArm u e d k) (h1 : e = .ep0 → d = .tx) (hc : t.cfg = u.cfg) (hdev : t.dev = u.dev)
    (hb : t.sie.tokenSuspended = u.sie.tokenSuspended) (hs : ∀ f, f ≠ e → Same u t f)
    (hrx : e = .ep0 → lane t .ep0 .rx = lane u .ep0 .rx) (hl : ∀ g, LaneArm t.cfg e g (t.ep.get e) (lane t e g)) :
    Arming t := by
  refine ⟨fun f hf g => ?_, fun hx => ?_, fun hx => ?_⟩
  · by_cases hfe : f = e
    · exact hfe ▸ hl g
    · exact h.same (hdev ▸ hf) hfe hc (hs f hfe) g
  · obtain ⟨h0, hu⟩ := h.unreset (hdev ▸ hx)
    exact hu.same hb (hs .ep0 h0.symm)
  · have hlane : lane t .ep0 .rx = lane u .ep0 .rx := by
      by_cases h0 : e = .ep0
      · exact hrx h0
      · exact (hs .ep0 (Ne.symm h0)).lane .rx
    rw [hlane]
    exact h.waits (hb.symm.trans hx) fun hx => by rw [h1 hx.1] at hx; cases hx.2

/-- The next packet of a transfer armed (R235, R236). -/
theorem PoppedArm.next (h : PoppedArm u e d k) (hi : PoppedInv u e d k) (h1 : e = .ep0 → d = .tx) (n : BitVec 10)
    (p : Phase) : Arming (packetArmed u e d (packetDone (u.ep.get e) d n p)) := by
  have hget : (packetArmed u e d (packetDone (u.ep.get e) d n p)).ep.get e = _ := EpBank.get_set_self u.ep e _
  have hother : ∀ g, g ≠ d → lane (packetArmed u e d (packetDone (u.ep.get e) d n p)) e g = lane u e g := by
    intro g hg
    rw [lane_packetArmed_other _ _ _ _ hg]
    simp [lane, packetDone, DirPair.get_set, hg]
  refine h.update h1 rfl rfl rfl (fun f hf => same_packetArmed u e d _ hf) ?_ fun g => ?_
  · rintro rfl
    obtain rfl := h1 rfl
    exact hother .rx (by decide)
  · rw [hget]
    by_cases hg : g = d
    · subst hg; exact laneArm_packetArmed h1 hi.flipped.own
    · rw [hother g hg]; exact h.otherLane hi h1 hg _

/-- The last packet of a transfer (R235, R236). -/
theorem PoppedArm.finish (h : PoppedArm u e d k) (hi : PoppedInv u e d k) (h1 : e = .ep0 → d = .tx) (n : BitVec 10)
    {p : Phase} (hp : ¬ ActivePhase u.cfg e d p ∧ ¬ DataPhase p) :
    Arming (finished u e (packetDone (u.ep.get e) d n p)) := by
  refine Arming.ran (s := setEp u e { packetDone (u.ep.get e) d n p with callback := none }) ?_ e _
  have hget : (setEp u e { packetDone (u.ep.get e) d n p with callback := none }).ep.get e = _ :=
    EpBank.get_set_self u.ep e _
  have hother : ∀ g, g ≠ d → lane (setEp u e { packetDone (u.ep.get e) d n p with callback := none }) e g =
      lane u e g := by
    intro g hg
    simp [lane, slots, setEp, packetDone, DirPair.get_set, hg]
  refine h.update h1 rfl rfl rfl
    (fun f hf => same_of ((EpBank.get_set u.ep e f _).trans (if_neg hf)) rfl rfl fun _ => rfl) ?_ fun g => ?_
  · rintro rfl
    obtain rfl := h1 rfl
    exact hother .rx (by decide)
  · rw [hget]
    by_cases hg : g = d
    · subst hg; exact .unserved h1 hp.1 fun hx => absurd hx hp.2
    · rw [hother g hg]; exact h.otherLane hi h1 hg _

/-! ## Endpoint 0's RX lane -/

/-- EP0 stalled, its RX slot armed for the next SETUP (R238). -/
theorem laneArm_stalled (s : State) (c : StallCause) (g : Dir) :
    LaneArm s.cfg .ep0 g ((ep0Stalled s c).ep.get .ep0) (lane (ep0Stalled s c) .ep0 g) := by
  have hp : ((ep0Stalled s c).ep.get .ep0).phase = .stall := rfl
  cases g with
  | rx =>
    have hs : (lane (ep0Stalled s c) .ep0 .rx).slots.get (lane (ep0Stalled s c) .ep0 .rx).sel = _ :=
      (slot_ep0Stalled_rx s c s.ep.ep0.odd.rx).trans (if_pos rfl)
    exact .ep0Rx (by rw [hs]) (by rw [hs]) (by rw [hs]; rfl)
  | tx =>
    exact .unserved (fun _ => rfl) (by rw [hp, active_ep0Tx]; decide) fun hx => absurd hx (by rw [hp]; decide)

/-- The arming invariants after an OUT completion of EP0, which leaves the tokens as they are. -/
theorem PoppedArm.out (h : PoppedArm u .ep0 .rx k) (hp : (slot u .ep0 .rx k).pid = pidOut) (hc : t.cfg = u.cfg)
    (hconn : t.dev.conn = u.dev.conn) (hb : t.sie.tokenSuspended = u.sie.tokenSuspended)
    (hs : ∀ f, f ≠ .ep0 → Same u t f) (hl : ∀ g, LaneArm t.cfg .ep0 g (t.ep.get .ep0) (lane t .ep0 g)) : Arming t := by
  refine arming_of_lanes (hconn ▸ h.reset) (fun f g => ?_) fun hx => ?_
  · by_cases hf : f = .ep0
    · exact hf ▸ hl g
    · exact h.same (fun hx => absurd hx hf) hf hc (hs f hf) g
  · exact absurd (hp.symm.trans (h.taken (hb.symm.trans hx) rfl rfl)) (by decide)

/-- EP0's OUT completion touches EP0's record only (R278). -/
theorem same_ep0OutFlipped (hf : f ≠ .ep0) : Same u (ep0OutFlipped u) f :=
  same_of (EpBank.get_ep0 _ _ hf) rfl rfl fun _ => rfl

/-! ## The SETUP handler -/

/-- A request neither attaches nor detaches (R311). -/
theorem Request.reset (hr : Request s t cb) (hx : s.dev.conn ≠ .attached) : t.dev.conn ≠ .attached := by
  cases hr with
  | calm hc | address hc => rw [hc.dev.conn]; exact hx
  | halt => exact hx
  | configure => exact (show ConnState.configured ≠ .attached by decide)
  | deconfigure => exact (show ConnState.addressed ≠ .attached by decide)

/-- An endpoint built or torn down is Idle, and any other is left alone (R329, R330). -/
theorem laneArm_allRebuilt (b : Bool) (dev : DeviceState) (hf : f ≠ .ep0)
    (h : LaneArm s.cfg f g (s.ep.get f) (lane s f g)) :
    LaneArm s.cfg f g ((setDev (allRebuilt s b) dev).ep.get f) (lane (setDev (allRebuilt s b) dev) f g) := by
  by_cases ho : Other s.cfg f
  · have hp : ((setDev (allRebuilt s b) dev).ep.get f).phase = .idle := by
      simp [setDev_ep, allRebuilt, EpBank.get_tabulate, if_pos ho, epRebuilt]
    exact .unserved (fun hx => absurd hx hf) (hp ▸ not_active_idle hf) fun hx => absurd hx (by rw [hp]; decide)
  · exact h.same (t := setDev (allRebuilt s b) dev) rfl (same_allRebuilt b dev ho)

/-- A request leaves the other endpoints' lanes as they were, or not served. -/
theorem Request.laneArm (hr : Request s t cb) (hf : f ≠ .ep0) (h : LaneArm s.cfg f g (s.ep.get f) (lane s f g)) :
    LaneArm t.cfg f g (t.ep.get f) (lane t f g) := by
  cases hr with
  | calm hc | address hc => exact h.same hc.cfg (hc.same f)
  | @halt i st p _ ho hp =>
    by_cases hi : f = i
    · subst hi; exact laneArm_epHalted ho hp g
    · exact h.same rfl (same_epHalted st p hi)
  | configure | deconfigure => exact laneArm_allRebuilt _ _ hf h

/-- A stage changes EP0's lanes only. -/
theorem Stage.same (hs : Stage s cb t) (hf : f ≠ .ep0) : Same s t f := by
  cases hs with
  | stall c => exact same_ep0Stalled c hf
  | noData | dataIn => exact same_ep0Armed _ _ _ hf
  | dataOut => exact same_ep0RxArmed _ hf

theorem Stage.cfg_dev (hs : Stage s cb t) : t.cfg = s.cfg ∧ t.dev = s.dev := by cases hs <;> exact ⟨rfl, rfl⟩

/-- A stage leaves EP0 armed as its phase asks (R274-R277). -/
theorem Stage.laneArm (hs : Stage s cb t) (hq : Quiet s) (g : Dir) :
    LaneArm t.cfg .ep0 g (t.ep.get .ep0) (lane t .ep0 g) := by
  cases hs with
  | stall c => exact laneArm_stalled s c g
  | noData =>
    exact laneArm_bothArmed (x := { s.ep.ep0 with callback := cb, phase := .statusIn }) rfl hq.tx
      (fun hx => nomatch (show DataPhase .statusIn from hx)) g
  | @dataIn a n hn =>
    refine laneArm_bothArmed (x := dataInRecord s a n cb) rfl hq.tx (fun _ => ⟨rfl, ?_⟩) g
    have hr : (BitVec.ofNat 16 n).toNat = n := by rw [BitVec.toNat_ofNat, Nat.mod_eq_of_lt hn]
    simp only [dataInRecord, hr]
    rfl
  | dataOut a n =>
    exact laneArm_rxArmed
      (x := { s.ep.ep0 with ptr := a, remaining := n, xferred := 0, callback := cb, phase := .dataOut }) rfl hq.tx ⟨nofun, nofun, nofun⟩ g

/-! ## Completions served -/

/-- The phase after the last IN packet serves no IN lane (R235). -/
theorem not_active_inEnd {c : Params} {p q : Phase}
    (h : (p = .lastIn ∧ q = if e = .ep0 then .statusOut else .idle) ∨ (p = .statusIn ∧ q = .idle)) :
    ¬ ActivePhase c e .tx q ∧ ¬ DataPhase q := by
  by_cases h0 : e = .ep0
  · subst h0
    rcases h with ⟨-, rfl⟩ | ⟨-, rfl⟩ <;> simp [active_ep0Tx]
  · have hq : q = .idle := by simpa [h0] using h.imp And.right And.right
    subst hq
    exact ⟨not_active_idle h0, by decide⟩

/-- A served completion, whatever it was of, leaves every lane armed as its phase asks. -/
theorem PoppedArm.served (h : PoppedArm u e d k) (hi : PoppedInv u e d k) (hs : Served u e d k t) : Arming t := by
  cases hs with
  | inNext => exact h.next hi (fun _ => rfl) _ _
  | inEnd _ hq => exact h.finish hi (fun _ => rfl) _ (not_active_inEnd hq)
  | outNext h0 => exact h.next hi (fun hx => absurd hx h0) _ _
  | outEnd h0 => exact h.finish hi (fun hx => absurd hx h0) _ ⟨not_active_idle h0, by decide⟩
  | outStall c hp =>
    exact h.out hp rfl rfl rfl (fun f hf => (same_ep0OutFlipped hf).trans (same_ep0Stalled c hf))
      (laneArm_stalled (ep0OutFlipped u) c)
  | outStatus hx hp =>
    have htx := hi.flip.1.free_ep0Tx (show (ep0OutFlipped u).ep.ep0.phase = .statusOut from hx) (by decide)
    exact h.out hp rfl rfl rfl (fun f hf => (same_ep0OutFlipped hf).trans (same_ep0RxArmed _ hf))
      (laneArm_rxArmed (x := { (ep0OutFlipped u).ep.ep0 with phase := .idle }) rfl htx ⟨nofun, nofun, nofun⟩)
  | outEarly _ hp =>
    rw [ep0EarlyStatus_eq]
    exact h.out hp rfl rfl rfl
      (fun f hf => ((same_ep0OutFlipped hf).trans (same_ep0TxDropped hf)).trans (same_ep0RxArmed _ hf))
      (laneArm_rxArmed (x := (ep0TxDropped (ep0OutFlipped u)).ep.ep0) rfl (free_ep0TxDropped _)
        ⟨nofun, nofun, nofun⟩)
  | @outData _ v n hx hc hp =>
    have hx : v.ep.ep0.phase = .dataOut := by rw [hc.ep]; exact hx
    have htx := (hi.flip.1.calm hc).free_ep0Tx hx (by decide)
    refine h.out hp hc.cfg hc.dev.conn hc.suspended
      (fun f hf => ((same_ep0OutFlipped hf).trans (hc.same f)).trans (same_ep0RxArmed _ hf))
      (laneArm_rxArmed (x := advance v.ep.ep0 n) rfl htx ?_)
    rw [show (advance v.ep.ep0 n).phase = .dataOut from hx]
    decide
  | @outDataEnd _ v n hx hc hp =>
    have hx : v.ep.ep0.phase = .dataOut := by rw [hc.ep]; exact hx
    have htx := (hi.flip.1.calm hc).free_ep0Tx hx (by decide)
    refine Arming.ran ?_ .ep0 _
    exact h.out hp hc.cfg hc.dev.conn hc.suspended
      (fun f hf => ((same_ep0OutFlipped hf).trans (hc.same f)).trans (same_ep0Armed _ _ _ hf))
      (laneArm_bothArmed (s := v) (x := { advance v.ep.ep0 n with callback := none, phase := .statusIn }) rfl htx
        fun hx => nomatch (show DataPhase .statusIn from hx))
  | @setup _ p v w cb hpid hr hst =>
    obtain ⟨-, hq⟩ := hi.resynced hpid p
    have hqv := hq.request hr
    obtain ⟨hcfg, hdev⟩ := hst.cfg_dev
    refine arming_of_lanes (show w.dev.conn ≠ .attached from hdev ▸ hr.reset h.reset) (fun f g => ?_) nofun
    by_cases hf : f = .ep0
    · subst hf; exact hst.laneArm hqv g
    · have hres : Same u (setupResynced u p) f :=
        same_of (EpBank.get_ep0 _ _ hf) (EpBank.get_ep0 _ _ hf) rfl fun _ => rfl
      have hv := hr.laneArm hf (h.same (t := setupResynced u p) (fun hx => absurd hx hf) hf rfl hres g)
      exact hv.same (t := w) hcfg (hst.same hf)

theorem Arming.effect (ha : Arming s) (h : SlotInv s) (he : Effect s t) : Arming t := by
  cases he with
  | none => exact ha
  | busReset ht =>
    obtain rfl := Host.Outcome.next.inj ((execEvUsbrst_eq s).symm.trans ht)
    exact arming_busReset s
  | sleep hc => exact ha.congr rfl (by simp [hc]) rfl fun _ => ⟨rfl, fun _ => rfl⟩
  | resume hc => exact ha.congr rfl (by simp [hc]) rfl fun _ => ⟨rfl, fun _ => rfl⟩
  | register _ ho => exact ha.setCb ho.1 _
  | start buf len ho _ hd hp => exact ha.start h ho hd hp buf len
  | halt ho _ hp => exact ha.halt ho hp
  | transact hc => exact ha.transact h hc
  | @drop c _ ht hx =>
    obtain ⟨e, he, hc⟩ := h.takes ht
    exact absurd hc (hx e he)
  | serve ht hn _ hs => exact (ha.popped h ht hn).served (h.popped ht hn) hs

end

/-- Settles O53: each effect of a step touches the lanes of one endpoint, and arms those the new phase serves or has
their completion queued. -/
theorem armingInvariantKept : Obligations.ArmingInvariantKept := by
  intro s t hs ha h
  rw [armInv_iff] at ha ⊢
  obtain ⟨-, ⟨-, a, -, ht⟩ | ⟨-, a, b, hsa, hab, hb⟩⟩ := step_cases h
  · exact (arming_powerOnAgain a).calm ht
  · exact ((ha.calm hsa).effect (hs.calm hsa) hab).calm hb

/-- Settles O48: INIT leaves a state within every invariant, and a power-on state is its own state after INIT. -/
theorem invariantsHoldAtPowerOn : Obligations.InvariantsHoldAtPowerOn := by
  have all : ∀ c : Params, memWf (State.powerOn c) = true ∧ DevInv (State.powerOn c) ∧ EnabledInv (State.powerOn c) ∧
      SlotInv (State.powerOn c) ∧ ArmInv (State.powerOn c) := fun c =>
    ⟨rfl, (devOk_powerOnAgain (State.powerOn c)).dev, (devOk_powerOnAgain (State.powerOn c)).enabled,
      (fresh_powerOnAgain (State.powerOn c)).slotInv, armInv_iff.2 (arming_powerOnAgain (State.powerOn c))⟩
  obtain ⟨hm, hd, he, hs, ha⟩ := all Params.example
  exact ⟨all, hm, by decide +kernel, hd, he, hs, ha⟩

end Sys2Proof.Machine
end

section
/-! PROOFS. Memory across a step (R80, R83, R90): it stays canonical, and only the bytes a step may write change. Every
write is a `store`, so each part of a step is confined to the bytes its stores may reach. -/

namespace Sys2Proof.Machine

/-- Settles O49: every effect of a step keeps the canonical form, because every write of memory is a `store`. -/
theorem memoryStaysCanonical : Obligations.MemoryStaysCanonical := fun _ _ hw h => (step_cfg_memWf h).2 hw

/-! ## Confined changes of memory -/

/-- From `s` to `t` only bytes at addresses in `P` change; the parameters are the same and memory stays canonical. -/
structure Within (P : Set Nat) (s t : State) : Prop where
  cfg : t.cfg = s.cfg
  wf : memWf s = true → memWf t = true
  changed : memWf s = true → ∀ a, peek t a ≠ peek s a → a ∈ P

/-- A result goes on only within `P` of `s`; `f` gives the state of the value it goes on with. -/
def Confined {α : Type} (P : Set Nat) (f : α → State) (s : State) (r : Host.Outcome α Fault Refusal) : Prop :=
  ∀ x, r = .next x → Within P s (f x)

/-- The addresses of the block's own RAM regions (R81). -/
def ramBytes (c : Params) : Set Nat := {a | ∃ r ∈ ramRegions c, InRange a r.base r.size}

/-- The destination of EP0's OUT data stage below the length left (R279). -/
def ep0DestBytes (s : State) : Set Nat :=
  {a | s.ep.ep0.phase = .dataOut ∧ InRange a s.ep.ep0.ptr.toNat s.ep.ep0.remaining.toNat}

/-- The buffers of the armed RX slots below their byte counts (R162, R163). -/
def armedBytes (s : State) : Set Nat :=
  {a | ∃ e k, (slot s e .rx k).own = true ∧ InRange a (slot s e .rx k).addr.toNat (slot s e .rx k).bc.toNat}

section
variable {P : Set Nat} {s t u : State}

theorem within_same (hc : t.cfg = s.cfg) (hm : t.mem = s.mem) : Within P s t :=
  ⟨hc, by rw [memWf, memWf, hc, hm]; exact id, fun _ a ha => absurd (peek_congr hc hm a) ha⟩

theorem Within.refl (s : State) : Within P s s := within_same rfl rfl

theorem Within.trans (h : Within P s t) (g : Within P t u) : Within P s u where
  cfg := g.cfg.trans h.cfg
  wf := g.wf ∘ h.wf
  changed hw a ha := by
    by_cases ht : peek t a = peek s a
    · exact g.changed (h.wf hw) a (ht ▸ ha)
    · exact h.changed hw a ht

variable {α β : Type} {f : α → State} {g : β → State} {r : Host.Outcome α Fault Refusal}

theorem confined_next {x : α} (h : Within P s (f x)) : Confined P f s (.next x) := by rintro _ ⟨⟩; exact h

theorem confined_same {x : α} (hc : (f x).cfg = s.cfg) (hm : (f x).mem = s.mem) : Confined P f s (.next x) :=
  confined_next (within_same hc hm)

theorem confined_refused (x : Refusal) : Confined P f s (.refused x) := by rintro _ ⟨⟩

theorem Confined.before (h : Within P s t) (hr : Confined P f t r) : Confined P f s r := fun x hx => h.trans (hr x hx)

theorem Confined.ite {c : Prop} [Decidable c] {a b : Host.Outcome α Fault Refusal} (ha : c → Confined P f s a)
    (hb : ¬ c → Confined P f s b) : Confined P f s (if c then a else b) := by
  split
  · exact ha ‹_›
  · exact hb ‹_›

/-- A sequence is confined where both of its parts are. -/
theorem Confined.andThen {k : α → Host.Outcome β Fault Refusal} (hr : Confined P f s r)
    (hk : ∀ x, r = .next x → Confined P g (f x) (k x)) : Confined P g s (andThen r k) := by
  intro y hy
  obtain ⟨x, hx, hy⟩ := andThen_next.1 hy
  exact (hr x hx).trans (hk x hx y hy)

/-! ## Loads and stores -/

/-- A load changes nothing. -/
theorem confined_load (a : Addr) (n : Nat) : Confined P (fun _ => s) s (load s a n) := fun _ _ => .refl s

theorem load_length {a : Addr} {n : Nat} {b : List Byte} (h : load s a n = .next b) : b.length = n := by
  unfold load at h
  split at h
  · cases h; exact peeks_length s a.toNat n
  · cases h

/-- A store changes bytes of its own range only (R10). -/
theorem confined_store {a : Addr} {bs : List Byte} (h : ∀ x, InRange x a.toNat bs.length → x ∈ P) :
    Confined P id s (store s a bs) := by
  intro t ht
  obtain ⟨hs, -, hm⟩ := store_next ht
  refine ⟨by rw [id, hs], fun hw => (hm hw).1, fun hw x hx => h x ?_⟩
  by_contra hn
  exact hx (((hm hw).2 x).trans (if_neg hn))

/-- A store within a RAM region of the block (R81). -/
theorem confined_store_ram (hP : ramBytes s.cfg ⊆ P) {a b : Addr} {n : Nat} {bs : List Byte}
    (hr : (⟨b.toNat, n⟩ : Region) ∈ ramRegions s.cfg) (hb : b.toNat ≤ a.toNat)
    (hn : a.toNat + bs.length ≤ b.toNat + n) : Confined P id s (store s a bs) :=
  confined_store fun _ hx => hP ⟨_, hr, by unfold InRange at hx ⊢; dsimp only; omega⟩

/-- A store of at most as many bytes as an armed RX slot takes, at its buffer (R162, R163). -/
theorem confined_store_armed (hP : armedBytes s ⊆ P) {e : EpId} {k : Bool} (ho : (slot s e .rx k).own = true)
    {bs : List Byte} (hn : bs.length ≤ (slot s e .rx k).bc.toNat) :
    Confined P id s (store s (slot s e .rx k).addr bs) :=
  confined_store fun _ hx => hP ⟨e, k, ho, by unfold InRange at hx ⊢; omega⟩

end

/-! ## Requests -/

section
variable {P : Set Nat} {s : State} {r : ReqRes}

/-- No stage of EP0 writes memory (R274-R277). -/
theorem Stage.within {cb : Option Callback} {t : State} (h : Stage s cb t) : Within P s t := by
  cases h <;> exact within_same rfl rfl

/-- A request's row is confined as its execution is. -/
theorem Confined.finish {bm : Byte} {l : BitVec 16} (h : Confined P Prod.snd s r) :
    Confined P id s (finishRequest bm l r) := by
  intro t ht
  obtain ⟨⟨o, v⟩, rfl, -⟩ := andThen_next.1 ht
  obtain ⟨w, hw, rfl⟩ := finish_stage ht
  exact ((h _ rfl).trans hw.within).trans (within_same rfl rfl)

theorem confined_fail (c : StallCause) : Confined P Prod.snd s (fail s c) := confined_next (.refl s)

/-- A check that fails with a cause, in front of the rest of a request. -/
theorem Confined.check {c : Prop} [Decidable c] {x : StallCause} (h : Confined P Prod.snd s r) :
    Confined P Prod.snd s (if c then fail s x else r) := .ite (fun _ => confined_fail x) fun _ => h

/-- Checks of the CDC hook, in front of the rest of a request (R411). -/
theorem Confined.cdc {lenOk : Bool} {x : BitVec 16} (h : Confined P Prod.snd s r) :
    Confined P Prod.snd s (match cdcCheck s lenOk x with
      | some c => fail s c
      | none => r) := by
  cases cdcCheck s lenOk x with
  | some c => exact confined_fail c
  | none => exact h

theorem confined_noData {t : State} {cb : Option Callback} (h : Within P s t) :
    Confined P Prod.snd s (noData t cb) := confined_next h

/-- Short replies are staged in EP0's TX buffer (R310). -/
theorem confined_replyStaged (hok : buildOk s.cfg = true) (hP : ramBytes s.cfg ⊆ P) {b : List Byte}
    (hb : b.length ≤ 8) : Confined P Prod.snd s (replyStaged s b) := by
  have hm := ep0Mps_cases hok
  exact (confined_store_ram hP (buf_mem (ep0_lt hok) .tx _) (le_refl _) (by rw [mps_ep0]; omega)).andThen
    fun v _ => confined_next (.refl v)

/-- The only reply a lookup encodes is a string (R214). -/
theorem descLookup_bytes {c : Params} {type idx : Byte} {b : List Byte}
    (h : descLookup c type idx = some (.bytes b)) : b = encodeString c idx.toNat := by
  unfold descLookup at h
  repeat' split at h
  all_goals cases h
  rfl

/-- A descriptor is sent in place, but an encoded string goes to the scratch buffer (R325). -/
theorem confined_replyDescriptor (hok : buildOk s.cfg = true) (hP : ramBytes s.cfg ⊆ P) (type idx : Byte) :
    Confined P Prod.snd s (replyDescriptor s (descLookup s.cfg type idx)) := by
  cases hx : descLookup s.cfg type idx with
  | none => exact confined_fail _
  | some x =>
    cases x with
    | rom a n => exact confined_next (.refl s)
    | bytes b =>
      have hb : b.length ≤ s.cfg.ep0Mps := descLookup_bytes hx ▸ encodeString_length hok _
      exact (confined_store_ram hP (scratch_mem s.cfg) (le_refl _) (Nat.add_le_add_left hb _)).andThen
        fun v _ => confined_next (.refl v)

theorem confined_deviceFeature (x : BitVec 16) (v : Bool) : Confined P Prod.snd s (deviceFeature s x v) :=
  .ite (fun _ => .ite (fun _ => confined_noData (within_same rfl rfl)) fun _ => confined_fail _)
    fun _ => .check (confined_fail _)

/-- The configuration change writes endpoints and device registers only (R329, R330). -/
theorem configure_within (v : BitVec 16) : Within P s (configure s v) := by
  have hb : (nonControl s.cfg).foldl build s = allRebuilt s true := foldl_rebuild_eq s true
  have ht : (nonControl s.cfg).foldl teardown s = allRebuilt s false := foldl_rebuild_eq s false
  unfold configure
  rw [hb, ht]
  split
  · exact within_same rfl rfl
  · split <;> exact within_same rfl rfl

/-- A hook's staging writes go to the line-coding buffer (R410(b)). -/
theorem confined_stagingWrites (hok : buildOk s.cfg = true) (hP : ramBytes s.cfg ⊆ P) (ws : List (Fin 7 × Byte)) :
    Confined P id s (stagingWrites s ws) := by
  induction ws generalizing s with
  | nil => exact confined_next (.refl s)
  | cons w ws ih =>
    have hs : s.cfg.lcAddr.toNat + 7 ≤ 2 ^ 32 := (ram_within hok (lc_mem s.cfg) (le_refl _) (le_refl _)).1
    have ha : (s.cfg.lcAddr + BitVec.ofNat 32 w.1).toNat = s.cfg.lcAddr.toNat + w.1 := by
      simp only [BitVec.toNat_add, BitVec.toNat_ofNat]; omega
    refine (confined_store_ram hP (lc_mem s.cfg) (by omega) ?_).andThen fun v hv => ?_
    · simp only [List.length_singleton]; omega
    · have hc := (calm_store hv).cfg
      exact ih (hc ▸ hok) (hc ▸ hP)

theorem confined_runHookReply (hok : buildOk s.cfg = true) (hP : ramBytes s.cfg ⊆ P) (bm : Byte) (x : HookReply) :
    Confined P Prod.snd s (runHookReply s bm x) :=
  .check ((confined_stagingWrites hok hP x.staging).andThen fun v _ =>
    have ⟨hm, hc⟩ := backendCalls_frame v x.calls
    confined_same hc hm)

end

/-! ## Completions -/

section
variable {P : Set Nat} {s : State}

/-- Every SETUP row writes to RAM regions of the block only (R273, R310, R410). -/
theorem confined_execRequest (hok : buildOk s.cfg = true) (hP : ramBytes s.cfg ⊆ P) (i : Instr) :
    Confined P id s (execRequest i s) := by
  have staged : ∀ b : List Byte, b.length ≤ 8 → Confined P Prod.snd s (replyStaged s b) :=
    fun _ => confined_replyStaged hok hP
  cases i with
  | getStatusDevice => exact .finish (.check (.check (staged _ (by simp))))
  | getStatusInterface => exact .finish (.check (.check (.check (staged _ (by simp)))))
  | getStatusEndpoint v x l =>
    refine .finish (.check (.check ?_))
    cases epCheck s x with
    | none => exact confined_fail _
    | some e => exact staged _ (by simp)
  | clearFeatureDevice | setFeatureDevice => exact .finish (.check (.check (confined_deviceFeature _ _)))
  | clearFeatureInterface | setFeatureInterface => exact .finish (.check (.check (.check (confined_fail _))))
  | clearFeatureEndpoint v x l | setFeatureEndpoint v x l =>
    refine .finish (.check (.check ?_))
    cases epCheck s x with
    | none => exact confined_fail _
    | some e => exact .check (confined_noData (by split <;> exact within_same (by simp) (by simp)))
  | setAddress => exact .finish (.check (.check (.check (confined_noData (within_same rfl rfl)))))
  | getDescriptorDevice | getDescriptorConfiguration | getDescriptorString =>
    exact .finish (.check (confined_replyDescriptor hok hP _ _))
  | getDescriptorOther => exact .finish (.check (confined_fail _))
  | getConfiguration => exact .finish (.check (.check (staged _ (by simp))))
  | setConfiguration => exact .finish (.check (.check (.check (confined_noData (configure_within _)))))
  | getInterface => exact .finish (.check (.check (.check (staged _ (by simp)))))
  | setInterface => exact .finish (.check (.check (.check (.check (confined_noData (.refl s))))))
  | setDescriptor | synchFrame | stdUnmatched | classUnmatched | reservedType =>
    exact .finish (confined_fail _)
  | cdcSetLineCoding => exact .finish (.cdc (confined_next (.refl s)))
  | cdcGetLineCoding =>
    refine .finish (.cdc (.before (within_same (t := backendCall s .getLineCoding) rfl rfl) ?_))
    exact Confined.andThen (confined_store_ram (by exact hP) (lc_mem s.cfg) (le_refl _) (le_refl _)) fun v _ =>
      confined_next (.refl v)
  | cdcSetControlLineState | cdcSendBreak => exact .finish (.cdc (confined_noData (within_same rfl rfl)))
  | vendorRequest =>
    refine .finish (.check ?_)
    cases s.cfg.vendorHook with
    | none => exact confined_fail _
    | some rows => exact confined_runHookReply hok hP _ _
  | tokSetupEp0 | tokOutEp0 | tokInEp0 | tokOutEpn | tokInEpn | tokSetupEpn | evUsbrst | evError | evSoftok | evTokdne
    | evSleep | evResume | evStall | startTx | startRx | stall | clearStall | setCallback | notify | sendData
    | receiveData | isConfigured => exact confined_refused _

/-- No callback writes memory (R237, R322, R413). -/
theorem confined_fireCallback {v : State} {e : EpId} (hv : Within P s v) : Confined P id s (fireCallback v e) := by
  have hcb : Within P s (setCb v e none) := hv.trans (within_same rfl rfl)
  refine .before hcb ?_
  unfold fireCallback
  simp only []
  cases (v.ep.get e).callback with
  | none => exact confined_next (.refl _)
  | some c =>
    cases c with
    | commitAddress | client | vendor => exact confined_same rfl rfl
    | applyLineCoding =>
      exact .ite (fun _ => (confined_load _ _).andThen fun _ _ => confined_same rfl rfl)
        fun _ => confined_next (.refl _)

/-- The IN handler writes no byte (R235). -/
theorem confined_handleIn (e : EpId) (k : Bool) : Confined P id s (handleIn s e k) := by
  unfold handleIn
  simp only [advance, flipDir]
  cases (s.ep.get e).phase with
  | dataIn => exact confined_same rfl rfl
  | lastIn | statusIn => exact confined_fireCallback (within_same rfl rfl)
  | idle | dataOut | statusOut | throttle | stall | complete => exact confined_same rfl rfl

/-- The OUT handler of an endpoint other than EP0 writes no byte: the SIE has put them in place (R236). -/
theorem confined_handleOut (e : EpId) (k : Bool) : Confined P id s (handleOut s e k) :=
  .ite (fun _ => confined_fireCallback (within_same rfl rfl)) fun _ => confined_same rfl rfl

/-- A protocol error writes no byte (R442). -/
theorem Within.raiseStall {v : State} (hv : Within P s v) (c : StallCause) : Within P s (raiseStall v c) :=
  hv.trans (within_same (raiseStall_cfg v c) (raiseStall_mem v c))

/-- EP0's OUT data stage copies a packet of at most the length left to its destination (R279). -/
theorem confined_outInDataOut (hp : s.ep.ep0.phase = .dataOut) (hP : ep0DestBytes s ⊆ P) (k : Bool) (n : BitVec 10) :
    Confined P id s (outInDataOut (ep0OutFlipped s) k n) := by
  have hflip : Within P s (ep0OutFlipped s) := within_same rfl rfl
  refine .before hflip (.ite (fun _ => confined_next ((Within.refl _).raiseStall _)) fun hn => ?_)
  have hroom : n.toNat ≤ s.ep.ep0.remaining.toNat := Nat.le_of_not_lt hn
  refine (confined_load _ _).andThen fun b hb => Confined.andThen (confined_store fun x hx => hP ⟨hp, hx.1, ?_⟩)
    fun v _ => ?_
  · exact Nat.lt_of_lt_of_le hx.2 (Nat.add_le_add_left (load_length hb ▸ hroom) _)
  · exact .ite (fun _ => confined_fireCallback (within_same rfl rfl)) fun _ => confined_same rfl rfl

/-- EP0's OUT handler (R278-R282). -/
theorem confined_handleEp0Out (hP : ep0DestBytes s ⊆ P) (k : Bool) : Confined P id s (handleEp0Out s k) := by
  have hflip : Within P s (ep0OutFlipped s) := within_same rfl rfl
  unfold handleEp0Out
  simp only [show setEp s .ep0 (flipDir s.ep.ep0 .rx) = ep0OutFlipped s from rfl]
  cases hc : s.ep.ep0.phase with
  | dataOut => exact confined_outInDataOut hc hP k _
  | statusOut =>
    unfold outInStatusOut
    refine confined_next (f := id) ?_
    split
    · exact within_same rfl rfl
    · exact hflip.raiseStall _
  | dataIn | lastIn =>
    unfold outInDataIn
    refine confined_next (f := id) ?_
    split
    · exact within_same rfl rfl
    · exact hflip.raiseStall _
  | idle | statusIn => exact confined_next (hflip.raiseStall _)
  | stall => exact confined_same rfl rfl
  | throttle | complete => exact confined_refused _

/-- The SETUP handler writes what its request writes (R272). -/
theorem confined_handleSetup (hok : buildOk s.cfg = true) (hP : ramBytes s.cfg ⊆ P) (k : Bool) :
    Confined P id s (handleSetup s k) := by
  have resync : ∀ p, Within P s (setupResynced s p) := fun _ => within_same rfl rfl
  refine (confined_load _ _).andThen fun b _ => ?_
  unfold setupRest
  simp only [resyncEp0_eq]
  refine .before (resync _) (.ite (fun _ => ?_) fun _ => confined_execRequest (by exact hok) (by exact hP) _)
  exact confined_next (((Within.refl _).raiseStall .s1).trans (within_same rfl rfl))

/-- A completion is served, or dropped with F4 (R372). -/
theorem Confined.serve {r : Res} (h : Confined P id s r) (e : EpId) (d : Dir) (k : Bool) (pid : BitVec 4) :
    Confined P id s (serve s e d k pid r) :=
  .ite (fun _ => h) fun _ => confined_same rfl rfl

/-- EV_TOKDNE writes what the completion it serves writes (R372). -/
theorem confined_execEvTokdne (hok : buildOk s.cfg = true) (hram : ramBytes s.cfg ⊆ P) (hdest : ep0DestBytes s ⊆ P) :
    Confined P id s (execEvTokdne s) := by
  cases ht : takeCompletion s.sie.tokq with
  | none => simp only [execEvTokdne, ht]; exact confined_next (.refl s)
  | some p =>
    obtain ⟨c, q⟩ := p
    refine .before (t := popped s q) (within_same rfl rfl) ?_
    have dropped : Confined P id (popped s q) (.next (raiseFault (popped s q) .f4)) := confined_same rfl rfl
    cases he : endpointOf s.cfg c.ep.toNat with
    | none =>
      have hn : completionRow (popped s q) c = none := by unfold completionRow; rw [popped_cfg, he]
      simp only [execEvTokdne, ht, show setSie s { s.sie with tokq := q } = popped s q from rfl, hn]
      exact dropped
    | some e =>
      rw [execEvTokdne_some ht he]
      refine .ite (fun _ => .ite (fun _ => ?_) fun _ => dropped) fun _ => .ite (fun _ => ?_) fun _ =>
        .ite (fun _ => (confined_handleIn e _).serve _ _ _ _) fun _ => dropped
      · exact (confined_handleSetup (by exact hok) (by exact hram) _).serve _ _ _ _
      · refine Confined.serve (.ite (fun _ => ?_) fun _ => confined_handleOut e _) _ _ _ _
        exact confined_handleEp0Out (by exact hdest) _

end

/-! ## Events, commands and transactions -/

section
variable {P : Set Nat} {s : State}

theorem confined_execEvSoftok : Confined P id s (execEvSoftok s) := by
  unfold execEvSoftok
  simp only [foldl_emit]
  cases (emit (setDev s (clearBits bitSoftok s.dev)) (.sof s.dev.frame)).hooks.sof <;>
    exact confined_same rfl rfl

/-- Of the events only a token completion writes memory (R372-R378). -/
theorem confined_runDispatch (hok : buildOk s.cfg = true) (hram : ramBytes s.cfg ⊆ P) (hdest : ep0DestBytes s ⊆ P)
    (g : Bool) : Confined P id s (runDispatch g s) := by
  unfold runDispatch
  cases hd : decodeEvent (pending s) g with
  | none => exact confined_next (.refl s)
  | some i =>
    unfold decodeEvent at hd
    repeat' split at hd
    all_goals cases hd
    · exact confined_same rfl rfl
    · exact confined_execEvTokdne hok hram hdest
    · exact .ite (fun _ => .ite (fun _ => confined_same rfl rfl) fun _ => confined_same rfl rfl)
        fun _ => confined_same rfl rfl
    · exact confined_same rfl rfl
    · exact confined_execEvSoftok
    · exact .ite (fun _ => confined_same rfl rfl) fun _ => confined_same rfl rfl
    · exact confined_same rfl rfl

theorem confined_execStall (e : BitVec 8) : Confined P id s (execStall e s) := by
  unfold execStall
  cases clientEp s e with
  | none => exact confined_same rfl rfl
  | some i => exact confined_same (stallEp_cfg s i) (stallEp_mem s i)

theorem confined_execClearStall (e : BitVec 8) : Confined P id s (execClearStall e s) := by
  unfold execClearStall
  cases clientEp s e <;> exact confined_same rfl rfl

theorem confined_execSetCallback (e : BitVec 8) (n : Nat) : Confined P id s (execSetCallback e n s) := by
  unfold execSetCallback
  cases clientEp s e <;> exact confined_same rfl rfl

/-- A start that is lost, refused or begun, none of which writes a byte (R233, R234, R244). -/
theorem confined_started {x : Except FaultReason EpId} {admitted : Bool} {lost : FaultReason → State}
    {begun : EpId → State} (hl : ∀ r, Within P s (lost r)) (hb : ∀ i, Within P s (begun i)) :
    Confined P id s (match x with
      | .error r => .next (lost r)
      | .ok i => if admitted then .next (begun i) else .refused .clientBuffer) := by
  cases x with
  | error r => exact confined_next (hl r)
  | ok i => exact .ite (fun _ => confined_next (hb i)) fun _ => confined_refused _

theorem confined_execStartTx (e : BitVec 8) (len : BitVec 16) (buf : Addr) :
    Confined P id s (execStartTx e len buf s) :=
  confined_started (fun _ => within_same rfl rfl) fun _ => within_same rfl rfl

/-- A notification goes to the buffer of the notification endpoint, which takes it in one packet (R418). -/
theorem confined_execNotify (hok : buildOk s.cfg = true) (hP : ramBytes s.cfg ⊆ P) (v : BitVec 16) :
    Confined P id s (execNotify v s) := by
  unfold execNotify
  cases he : epNotify s.cfg with
  | none => exact confined_same rfl rfl
  | some e =>
    obtain ⟨⟨-, hn⟩, -⟩ := epOfRole_is he
    refine .ite (fun _ => confined_same rfl rfl) fun _ =>
      .ite (fun _ => confined_same rfl rfl) fun _ =>
        Confined.andThen ?_ fun _ _ => confined_execStartTx _ _ _
    exact confined_store_ram hP (buf_mem hn .tx _) (le_refl _) (Nat.add_le_add_left (notify_mps hok he) _)

/-- Of the client commands only notify writes memory (R133). -/
theorem confined_runClient (hok : buildOk s.cfg = true) (hP : ramBytes s.cfg ⊆ P) (word : List Byte) :
    Confined P id s (runClient word s) := by
  unfold runClient decode
  cases hd : decodeCmd word with
  | none => exact confined_refused _
  | some i =>
    unfold decodeCmd at hd
    repeat' split at hd
    all_goals cases hd
    · exact confined_same rfl rfl
    · exact confined_execStall _
    · exact confined_execClearStall _
    · exact confined_execNotify hok hP _
    · exact confined_execSetCallback _ _
    · exact confined_started (fun _ => within_same rfl rfl) fun _ => within_same rfl rfl
    · exact confined_started (fun _ => within_same rfl rfl) fun _ => within_same rfl rfl
    · exact confined_execStartTx _ _ _
    · exact confined_started (fun _ => within_same rfl rfl) fun _ => within_same rfl rfl

/-- An overlong packet fills the armed slot's buffer (R162, R163). -/
theorem confined_overrun (hP : armedBytes s ⊆ P) {e : EpId} {k : Bool} (ho : (slot s e .rx k).own = true) :
    Confined P id s (overrun s (slot s e .rx k)) :=
  (confined_store_armed hP ho (freeBytes_length _ _).le).andThen fun _ _ => confined_same rfl rfl

/-- A SETUP packet goes to EP0's armed RX slot (R162). -/
theorem confined_hostSetup (hP : armedBytes s ⊆ P) (a : BitVec 7) (e : BitVec 4) (data : List Byte) :
    Confined P id s (hostSetup a e data s) := by
  have ignored : Confined P id s (.next (answer s .none)) := confined_same rfl rfl
  refine .ite (fun _ => ignored) fun _ => .ite (fun _ => ignored) fun _ => .ite (fun _ => ignored) fun ho => ?_
  have ho := Bool.eq_true_of_not_eq_false ho
  exact .ite (fun _ => confined_overrun hP ho) fun hn => (confined_store_armed hP ho (Nat.le_of_not_lt hn)).andThen
    fun _ _ => confined_same rfl rfl

/-- An OUT packet goes to the armed RX slot of its endpoint (R163). -/
theorem confined_hostOut (hP : armedBytes s ⊆ P) (a : BitVec 7) (e : BitVec 4) (p : Bool) (data : List Byte) :
    Confined P id s (hostOut a e p data s) := by
  have answered : ∀ x, Confined P id s (.next (answer s x)) := fun _ => confined_same rfl rfl
  unfold hostOut
  cases tokenTo s a e with
  | none => exact answered _
  | some i =>
    refine .ite (fun _ => .ite (fun _ => confined_same rfl rfl) fun _ => .ite (fun _ => answered _)
      fun hnak => ?_) fun _ => answered _
    obtain ⟨-, ho, -⟩ := not_mustNak hnak
    exact .ite (fun _ => confined_overrun hP ho) fun hn => .ite (fun _ => answered _) fun _ =>
      (confined_store_armed hP ho (Nat.le_of_not_lt hn)).andThen fun _ _ => confined_same rfl rfl

/-- An IN transaction reads memory only (R164). -/
theorem confined_hostIn (a : BitVec 7) (e : BitVec 4) (ack : Bool) : Confined P id s (hostIn a e ack s) := by
  have answered : ∀ x, Confined P id s (.next (answer s x)) := fun _ => confined_same rfl rfl
  unfold hostIn
  cases tokenTo s a e with
  | none => exact answered _
  | some i =>
    refine .ite (fun _ => .ite (fun _ => confined_same rfl rfl) fun _ => .ite (fun _ => answered _)
      fun _ => (confined_load _ _).andThen fun b _ => confined_next ?_) fun _ => answered _
    split <;> exact within_same rfl rfl

/-! ## The step -/

/-- A line writes what its agent may: the block, the SIE, or the client its own bytes (R90). -/
theorem confined_runLine (hok : buildOk s.cfg = true) (hram : ramBytes s.cfg ⊆ P) (hdest : ep0DestBytes s ⊆ P)
    (harmed : armedBytes s ⊆ P) {l : Line}
    (hown : ∀ b data, l = .memWrite b data → ∀ a, InRange a b.toNat data.length → a ∈ P) :
    Confined P id s (runLine l s) := by
  cases l with
  | init | hReset | hSof | hIdle | hResume => exact confined_same rfl rfl
  | hSetup a e data => exact confined_hostSetup harmed a e data
  | hOut a e p data => exact confined_hostOut harmed a e p data
  | hIn a e ack => exact confined_hostIn a e ack
  | hError x => exact .ite (fun _ => confined_refused _) fun _ => confined_same rfl rfl
  | dispatch g => exact confined_runDispatch hok hram hdest g
  | client word => exact confined_runClient hok hram word
  | backend v =>
    exact .before (t := { s with backend := { s.backend with lineState := v } }) (within_same rfl rfl)
      (confined_execNotify (by exact hok) (by exact hram) v)
  | memWrite b data => exact confined_store (hown b data rfl)

/-- A step is confined to the bytes it may write (R90). -/
theorem confined_step (s : State) : Confined {a | WritableBy s a} id s (step s) := by
  have hram : ramBytes s.cfg ⊆ {a | WritableBy s a} := fun _ => .inl
  have hdest : ep0DestBytes s ⊆ {a | WritableBy s a} := fun _ ha => .inr (.inl ha)
  have harmed : armedBytes s ⊆ {a | WritableBy s a} := fun _ ha => .inr (.inr (.inl ha))
  refine .ite (fun hok => Confined.andThen ?_ fun t _ =>
    confined_same (wakeClient_cfg t) (wakeClient_mem t)) fun _ => confined_refused _
  unfold runNext
  cases hl : takeLine s s.lines with
  | none =>
    refine .ite (fun _ => ?_) fun _ => confined_next (.refl s)
    exact .before (t := { s with draws := s.draws + 1 }) (within_same rfl rfl)
      (confined_runDispatch (by exact hok) (by exact hram) (by exact hdest) _)
  | some p =>
    obtain ⟨l, rest⟩ := p
    refine .before (t := { s with lines := rest }) (within_same rfl rfl)
      (confined_runLine (by exact hok) (by exact hram) (by exact hdest) (by exact harmed) ?_)
    rintro b data rfl a ha
    exact .inr (.inr (.inr ⟨b, data, by rw [nextLine, hl]; rfl, ha⟩))

end

/-- Settles O50: every write of a step is a `store` to a RAM region of the block, to EP0's OUT destination, to an armed
RX slot's buffer, or the client's own. -/
theorem writesAreBounded : Obligations.WritesAreBounded := fun s t hw h => (confined_step s t h).changed hw

end Sys2Proof.Machine
end

section
/-! PROOFS. The decoder and the encoder (30_encoding.md): the fields of a word and its bytes, one law per format, and
from them that decoding inverts encoding (R111, R114, R127, R133). -/

namespace Sys2Proof

/-! ## Fields and their bytes -/

/-- The two bytes of a field make it up again (R8). -/
@[simp] theorem le16_lo8_hi8 (v : BitVec 16) : le16 (lo8 v) (hi8 v) = v := BitVec.extractLsb'_append_extractLsb'

/-- The low byte of two bytes put together (R8). -/
@[simp] theorem lo8_le16 (a b : Byte) : lo8 (le16 a b) = a :=
  (BitVec.extractLsb'_append_eq_of_add_le (by decide)).trans BitVec.extractLsb'_eq_self

/-- The four bytes of a 32-bit value make it up again (R84). -/
@[simp] theorem le32_bytes (v : BitVec 32) :
    le32 (v.extractLsb' 0 8) (v.extractLsb' 8 8) (v.extractLsb' 16 8) (v.extractLsb' 24 8) = v := by
  have h3 : v.extractLsb' 24 8 ++ v.extractLsb' 16 8 = v.extractLsb' 16 16 :=
    BitVec.extractLsb'_append_extractLsb'_eq_extractLsb' rfl
  have h2 : v.extractLsb' 16 16 ++ v.extractLsb' 8 8 = v.extractLsb' 8 24 :=
    BitVec.extractLsb'_append_extractLsb'_eq_extractLsb' rfl
  rw [le32, h3, h2]
  exact BitVec.extractLsb'_append_extractLsb'

/-- A completion word is its high and its low byte, the four bits above it being 0 (log 40). -/
theorem decodeCompletionBytes_word (w : BitVec 12) :
    decodeCompletionBytes [w.extractLsb' 0 8, (w.extractLsb' 8 4).setWidth 8] = decodeCompletion w := by
  have hz : ((w.extractLsb' 8 4).setWidth 8).extractLsb' 4 4 = 0 := by
    ext i hi
    simp
  have hw : ((w.extractLsb' 8 4).setWidth 8).extractLsb' 0 4 ++ w.extractLsb' 0 8 = w := by
    rw [BitVec.extractLsb'_setWidth_of_le (by decide), BitVec.extractLsb'_eq_self]
    exact BitVec.extractLsb'_append_extractLsb'
  rw [decodeCompletionBytes, if_pos hz, hw]

/-! ## One law per format -/

/-- A setup packet's bytes hold the packet (R111). -/
theorem Setup.ofList?_bytes (p : Setup) : Setup.ofList? p.bytes = some p := by
  simp [Setup.ofList?, Setup.bytes, Setup.ofBytes]

/-- A setup packet's bytes decode to the operation it names (R111, R114). -/
theorem decode_packet (p : Setup) : decode .setup p.bytes = .ok (decodeSetup p) := by
  simp only [decode, Setup.ofList?_bytes]

/-- A completion's bytes decode to the row of its fields (R127, R138). -/
theorem decode_completion {pid ep : BitVec 4} {d : Dir} {k : Bool} {i : Instr}
    (h : decodeCompletion (completionWord pid ep d k) = some i) :
    decode .completion (completionBytes pid ep d k) = .ok i := by
  simp only [decode, completionBytes, decodeCompletionBytes_word, h]

/-- Bytes that name a command decode to it (R133). -/
theorem decode_cmd {bs : List Byte} {i : Instr} (h : decodeCmd bs = some i) : decode .cmd bs = .ok i := by
  simp only [decode, h]

/-! ## The fallback rows -/

/-- A standard request with the keys of no standard row falls to STD_UNMATCHED (R116, R137). -/
theorem decodeSetup_stdUnmatched {bm r : Byte} {v x l : BitVec 16} (h : (Instr.stdUnmatched bm r v x l).wf = true) :
    decodeSetup ⟨bm, r, v, x, l⟩ = .stdUnmatched bm r v x l := by
  simp only [Instr.wf, Bool.and_eq_true, beq_iff_eq, Bool.not_eq_true', List.contains_eq_mem, decide_eq_false_iff_not,
    standardKeys, List.cons_append, List.nil_append, List.mem_cons, Prod.mk.injEq, List.not_mem_nil, or_false,
    not_or] at h
  simp only [decodeSetup, decodeStandard, h, if_true, if_false]

/-- A class request with the keys of no CDC row falls to CLASS_UNMATCHED (R120, R137). -/
theorem decodeSetup_classUnmatched {bm r : Byte} {v x l : BitVec 16} (h : (Instr.classUnmatched bm r v x l).wf = true) :
    decodeSetup ⟨bm, r, v, x, l⟩ = .classUnmatched bm r v x l := by
  simp only [Instr.wf, Bool.and_eq_true, beq_iff_eq, Bool.not_eq_true', List.contains_eq_mem, decide_eq_false_iff_not,
    cdcKeys, List.mem_cons, Prod.mk.injEq, List.not_mem_nil, or_false, not_or] at h
  have h0 : (1 : BitVec 2) ≠ 0 := by decide
  simp only [decodeSetup, decodeClass, h, h0, if_true, if_false]

/-- GET_DESCRIPTOR to the device goes by its descriptor type (R116, R117). -/
theorem decodeSetup_descriptor (t idx : Byte) (x l : BitVec 16) :
    decodeSetup ⟨0x80, 0x06, le16 idx t, x, l⟩ =
      if t = 0x01 then .getDescriptorDevice idx x l
      else if t = 0x02 then .getDescriptorConfiguration idx x l
      else if t = 0x03 then .getDescriptorString idx x l
      else .getDescriptorOther t idx x l := by
  have h : decodeSetup ⟨0x80, 0x06, le16 idx t, x, l⟩ = decodeGetDescriptor ⟨0x80, 0x06, le16 idx t, x, l⟩ := by
    simp [decodeSetup, decodeStandard, typeBits]
  simp only [h, decodeGetDescriptor, Laws.RowMatch.hi8_le16, lo8_le16]

/-- Settles O58, row by row: a packet decodes by its keys, a completion by its fields, a command by its code byte. -/
theorem decodeEncodeRoundTrip : Obligations.DecodeEncodeRoundTrip := by
  intro i hwf
  cases i with
  | getStatusDevice v x l | getStatusInterface v x l | getStatusEndpoint v x l | clearFeatureDevice v x l
  | clearFeatureInterface v x l | clearFeatureEndpoint v x l | setFeatureDevice v x l | setFeatureInterface v x l
  | setFeatureEndpoint v x l | setAddress v x l | setDescriptor v x l | getConfiguration v x l
  | setConfiguration v x l | getInterface v x l | setInterface v x l | synchFrame v x l =>
    refine (decode_packet ⟨_, _, v, x, l⟩).trans (congrArg _ ?_)
    simp [decodeSetup, decodeStandard, typeBits]
  | cdcSetLineCoding v x l | cdcGetLineCoding v x l | cdcSetControlLineState v x l | cdcSendBreak v x l =>
    refine (decode_packet ⟨_, _, v, x, l⟩).trans (congrArg _ ?_)
    simp [decodeSetup, decodeClass, typeBits]
  | getDescriptorDevice idx x l | getDescriptorConfiguration idx x l | getDescriptorString idx x l =>
    exact (decode_packet ⟨_, _, _, x, l⟩).trans (congrArg _ (decodeSetup_descriptor _ idx x l))
  | getDescriptorOther t idx x l =>
    refine (decode_packet ⟨_, _, _, x, l⟩).trans (congrArg _ ((decodeSetup_descriptor t idx x l).trans ?_))
    simp only [Instr.wf, Bool.and_eq_true, bne_iff_ne] at hwf
    simp only [hwf, if_false]
  | stdUnmatched bm r v x l =>
    exact (decode_packet ⟨bm, r, v, x, l⟩).trans (congrArg _ (decodeSetup_stdUnmatched hwf))
  | classUnmatched bm r v x l =>
    exact (decode_packet ⟨bm, r, v, x, l⟩).trans (congrArg _ (decodeSetup_classUnmatched hwf))
  | vendorRequest bm r v x l | reservedType bm r v x l =>
    simp only [Instr.wf, beq_iff_eq] at hwf
    refine (decode_packet ⟨bm, r, v, x, l⟩).trans (congrArg _ ?_)
    simp [decodeSetup, hwf]
  | tokSetupEp0 k | tokOutEp0 k | tokInEp0 k =>
    exact decode_completion (Machine.decodeCompletion_word _ _ _ _)
  | tokOutEpn ep k | tokInEpn ep k | tokSetupEpn ep k =>
    simp only [Instr.wf, bne_iff_ne] at hwf
    refine decode_completion ((Machine.decodeCompletion_word _ ep _ k).trans ?_)
    simpa [pidSetup, pidOut, pidIn] using hwf
  | evUsbrst | evError | evSoftok | evTokdne | evSleep | evStall => rfl
  | evResume genuine => cases genuine <;> rfl
  | startTx e len buf | startRx e len buf | notify st | sendData buf len | receiveData buf len =>
    exact decode_cmd (by simp [decodeCmd, bytes16, bytes32, encode])
  | stall e | clearStall e | isConfigured => rfl
  | setCallback e id =>
    exact decode_cmd (by simpa [decodeCmd, bytes32, encode, Instr.wf] using hwf)

/-- Settles O60: each word is the encoding of its operation, which decodes from it. -/
theorem writtenWordsDecode : Obligations.WrittenWordsDecode :=
  ⟨decodeEncodeRoundTrip (.setAddress 5 0 0) rfl, decodeEncodeRoundTrip (.getDescriptorString 3 0x409 255) rfl,
    decodeEncodeRoundTrip (.cdcSetLineCoding 0 1 7) rfl,
    decodeEncodeRoundTrip (.vendorRequest 0xC0 0x77 0x1234 0x5678 16) rfl,
    decodeEncodeRoundTrip (.tokInEpn 2 true) rfl, decodeEncodeRoundTrip (.evResume true) rfl,
    decodeEncodeRoundTrip (.startTx 2 100 0x20000100) rfl⟩

end Sys2Proof
end

section
/-! PROOFS. Which row of the opcode table an operation decodes by (30_encoding.md): the most specific one that matches
a setup packet, the row of a completion word's fields, the first pending event (R114, R127, R138, R371). -/

namespace Sys2Proof

/-! ## Setup packets and their operations -/

/-- The operation is well formed and the packet is its encoding (R111). -/
structure Names (p : Setup) (i : Instr) : Prop where
  wf : i.wf = true
  format : i.row.format = .setup
  bytes : encode i = p.bytes

section
variable {p : Setup}

/-- A branch of the decoder, each side under its condition. -/
theorem Names.ite {c : Prop} [Decidable c] {i j : Instr} (hi : c → Names p i) (hj : ¬ c → Names p j) :
    Names p (if c then i else j) := by
  split
  · exact hi ‹_›
  · exact hj ‹_›

/-- A branch of the decoder that takes one exact row. -/
theorem Names.exactElse {bm r : Byte} {i j : Instr}
    (hi : Names ⟨bm, r, p.wValue, p.wIndex, p.wLength⟩ i)
    (hj : ¬ (p.bmRequestType = bm ∧ p.bRequest = r) → Names p j) :
    Names p (if p.bmRequestType = bm ∧ p.bRequest = r then i else j) := by
  refine .ite ?_ hj
  rintro ⟨rfl, rfl⟩
  exact hi

/-- GET_DESCRIPTOR (R116, R117). -/
theorem names_decodeGetDescriptor (hb : p.bmRequestType = 0x80 ∧ p.bRequest = 0x06) :
    Names p (decodeGetDescriptor p) := by
  obtain ⟨bm, r, v, x, l⟩ := p
  obtain ⟨rfl, rfl⟩ := hb
  have ofType {t : Byte} (ht : hi8 v = t) : descriptorPacket t (lo8 v) x l = Setup.bytes ⟨0x80, 0x06, v, x, l⟩ := by
    subst ht
    rw [descriptorPacket, le16_lo8_hi8]
  refine .ite (fun h => ⟨rfl, rfl, ofType h⟩) fun h1 => .ite (fun h => ⟨rfl, rfl, ofType h⟩) fun h2 =>
    .ite (fun h => ⟨rfl, rfl, ofType h⟩) fun h3 => ⟨?_, rfl, ofType rfl⟩
  simp only [Instr.wf, bne_iff_ne.2 h1, bne_iff_ne.2 h2, bne_iff_ne.2 h3, Bool.and_self]

/-- Of the standard rows ten stand before GET_DESCRIPTOR and six after it; the rest is STD_UNMATCHED (R116). -/
theorem names_decodeStandard (ht : typeBits p.bmRequestType = 0) : Names p (decodeStandard p) := by
  unfold decodeStandard
  iterate 10 refine .exactElse ⟨rfl, rfl, rfl⟩ fun _ => ?_
  refine .ite names_decodeGetDescriptor fun _ => ?_
  iterate 6 refine .exactElse ⟨rfl, rfl, rfl⟩ fun _ => ?_
  refine ⟨?_, rfl, rfl⟩
  simp_all only [Instr.wf, standardKeys, List.contains_eq_mem, List.cons_append, List.nil_append, List.mem_cons,
    Prod.mk.injEq, List.not_mem_nil, or_false, decide_false, beq_self_eq_true, Bool.not_false, Bool.and_self]

/-- Four CDC rows, the rest is CLASS_UNMATCHED (R120, R137). -/
theorem names_decodeClass (ht : typeBits p.bmRequestType = 1) : Names p (decodeClass p) := by
  unfold decodeClass
  iterate 4 refine .exactElse ⟨rfl, rfl, rfl⟩ fun _ => ?_
  refine ⟨?_, rfl, rfl⟩
  simp_all only [Instr.wf, cdcKeys, List.contains_eq_mem, List.mem_cons, Prod.mk.injEq, List.not_mem_nil,
    or_false, decide_false, beq_self_eq_true, Bool.not_false, Bool.and_self]

/-- The fourth of the request types (R112). -/
theorem typeBits_eq_three {b : Byte} (h0 : typeBits b ≠ 0) (h1 : typeBits b ≠ 1) (h2 : typeBits b ≠ 2) :
    typeBits b = 3 := by
  generalize typeBits b = t at *
  revert t
  decide

/-- A packet decodes to an operation that it is the encoding of: the fallback rows take every other packet (R114). -/
theorem names_decodeSetup (p : Setup) : Names p (decodeSetup p) :=
  .ite names_decodeStandard fun h0 => .ite names_decodeClass fun h1 =>
    .ite (fun h2 => ⟨beq_iff_eq.2 h2, rfl, rfl⟩) fun h2 => ⟨beq_iff_eq.2 (typeBits_eq_three h0 h1 h2), rfl, rfl⟩

end

/-! ## Words and rows -/

/-- Every operation's word matches its row of the table: the laws RowMatch, in the order of `Instr`. -/
theorem rowMatch (i : Instr) : Laws.RowMatch.Statement i := by
  open Laws.RowMatch in
  exact i.rec getStatusDevice getStatusInterface getStatusEndpoint clearFeatureDevice clearFeatureInterface
    clearFeatureEndpoint setFeatureDevice setFeatureInterface setFeatureEndpoint setAddress getDescriptorDevice
    getDescriptorConfiguration getDescriptorString getDescriptorOther setDescriptor getConfiguration setConfiguration
    getInterface setInterface synchFrame stdUnmatched cdcSetLineCoding cdcGetLineCoding cdcSetControlLineState
    cdcSendBreak classUnmatched vendorRequest reservedType tokSetupEp0 tokOutEp0 tokInEp0 tokOutEpn tokInEpn
    tokSetupEpn evUsbrst evError evSoftok evTokdne evSleep evResume evStall startTx startRx stall clearStall
    setCallback notify sendData receiveData isConfigured

/-- A word that matches a row has the row's field where the mask has all of the field's bits (R114). -/
theorem field_of_match {k : BitVec 32} {r : OpRow} (h : k &&& r.mask = r.pattern) {n m : Nat}
    (hm : r.mask.extractLsb' n m = BitVec.allOnes m) : k.extractLsb' n m = r.pattern.extractLsb' n m := by
  rw [← h, BitVec.extractLsb'_and, hm, BitVec.and_allOnes]

/-- Two rows that match one word agree on the bits both their masks have. -/
theorem patterns_agree {k : BitVec 32} {q r : OpRow} (hq : k &&& q.mask = q.pattern) (hr : k &&& r.mask = r.pattern) :
    r.pattern &&& q.mask = q.pattern &&& r.mask := by
  rw [← hq, ← hr, BitVec.and_assoc, BitVec.and_assoc, BitVec.and_comm r.mask]

/-- A packet's key is the first four of its bytes (R114). -/
theorem tableWord_bytes (p : Setup) : tableWord p.bytes = p.key :=
  congrArg (fun v : BitVec 16 => v ++ p.bRequest ++ p.bmRequestType) (le16_lo8_hi8 p.wValue)

/-- The bytes of a key. -/
theorem key_bytes (p : Setup) : p.key.extractLsb' 0 8 = p.bmRequestType ∧ p.key.extractLsb' 8 8 = p.bRequest ∧
    p.key.extractLsb' 24 8 = hi8 p.wValue := by
  refine ⟨?_, ?_, ?_⟩
  · exact (BitVec.extractLsb'_append_eq_of_add_le (by decide)).trans BitVec.extractLsb'_eq_self
  · exact (BitVec.extractLsb'_append_eq_of_le (by decide)).trans
      ((BitVec.extractLsb'_append_eq_of_add_le (by decide)).trans BitVec.extractLsb'_eq_self)
  · exact (BitVec.extractLsb'_append_eq_of_le (by decide)).trans (BitVec.extractLsb'_append_eq_of_le (by decide))

/-- A packet is made up of its bytes (R111). -/
theorem Setup.bytes_inj {p q : Setup} (h : p.bytes = q.bytes) : p = q := by
  have hq := Setup.ofList?_bytes q
  rw [← h, Setup.ofList?_bytes] at hq
  exact Option.some.inj hq

/-! ## The most specific row of a packet -/

/-- The SETUP rows of the table. -/
def setupRows : List OpRow := standardRows ++ classRows

theorem mem_setupRows : ∀ r ∈ opcodeTable, r.format = .setup → r ∈ setupRows := by decide +kernel

/-- Row `r` has fewer mask bits than `q`, and only bits of `q`'s. -/
abbrev Coarser (r q : OpRow) : Prop := r.mask &&& q.mask = r.mask ∧ r.mask ≠ q.mask

/-- Of two SETUP rows that agree on their common bits, the second is the first, is the coarser one, or takes one of the
types or keys that the first, a fallback row, leaves out (R114). -/
theorem setupRows_overlap : ∀ q ∈ setupRows, ∀ r ∈ setupRows, r.pattern &&& q.mask = q.pattern &&& r.mask →
    r = q ∨ Coarser r q ∨
    (q.mnemonic = "GET_DESCRIPTOR_OTHER" ∧ r.mask.extractLsb' 24 8 = BitVec.allOnes 8 ∧
      r.pattern.extractLsb' 24 8 ∈ [0x01, 0x02, 0x03]) ∨
    ((r.mask.extractLsb' 0 8 = BitVec.allOnes 8 ∧ r.mask.extractLsb' 8 8 = BitVec.allOnes 8) ∧
      let key := (r.pattern.extractLsb' 0 8, r.pattern.extractLsb' 8 8)
      (q.mnemonic = "STD_UNMATCHED" ∧ key ∈ standardKeys ∨ q.mnemonic = "CLASS_UNMATCHED" ∧ key ∈ cdcKeys)) := by
  decide +kernel

section
variable {p : Setup} {i : Instr}

/-- GET_DESCRIPTOR_OTHER stands for no descriptor type that has a row (R116). -/
theorem Names.type_notMem (h : Names p i) (hq : i.row.mnemonic = "GET_DESCRIPTOR_OTHER") :
    hi8 p.wValue ∉ [0x01, 0x02, 0x03] := by
  cases i with
  | getDescriptorOther t idx x l =>
    obtain rfl := Setup.bytes_inj h.bytes
    have hw := h.wf
    simp only [Instr.wf, Bool.and_eq_true, bne_iff_ne] at hw
    simpa [Laws.RowMatch.hi8_le16, and_assoc] using hw
  | _ => simp [Instr.row] at hq

/-- STD_UNMATCHED stands for the keys of no standard row (R137). -/
theorem Names.key_notMem_standard (h : Names p i) (hq : i.row.mnemonic = "STD_UNMATCHED") :
    (p.bmRequestType, p.bRequest) ∉ standardKeys := by
  cases i with
  | stdUnmatched bm r v x l =>
    obtain rfl := Setup.bytes_inj h.bytes
    have hw := h.wf
    simp only [Instr.wf, Bool.and_eq_true, Bool.not_eq_true', List.contains_eq_mem, decide_eq_false_iff_not] at hw
    exact hw.2
  | _ => simp [Instr.row] at hq

/-- CLASS_UNMATCHED stands for the keys of no CDC row (R137). -/
theorem Names.key_notMem_cdc (h : Names p i) (hq : i.row.mnemonic = "CLASS_UNMATCHED") :
    (p.bmRequestType, p.bRequest) ∉ cdcKeys := by
  cases i with
  | classUnmatched bm r v x l =>
    obtain rfl := Setup.bytes_inj h.bytes
    have hw := h.wf
    simp only [Instr.wf, Bool.and_eq_true, Bool.not_eq_true', List.contains_eq_mem, decide_eq_false_iff_not] at hw
    exact hw.2
  | _ => simp [Instr.row] at hq

/-- The operation's row is one of the table and matches the packet's key (R114). -/
theorem Names.row (h : Names p i) : i.row ∈ opcodeTable ∧ p.key &&& i.row.mask = i.row.pattern := by
  have hm := rowMatch i h.wf
  rwa [h.bytes, tableWord_bytes] at hm

/-- Every other row that matches the packet is coarser (R114). -/
theorem Names.row_finest (h : Names p i) {r : OpRow} (hr : r ∈ opcodeTable) (hs : r.format = .setup)
    (hm : p.key &&& r.mask = r.pattern) : r = i.row ∨ Coarser r i.row := by
  obtain ⟨hi, hmi⟩ := h.row
  obtain ⟨k0, k1, k3⟩ := key_bytes p
  rcases setupRows_overlap _ (mem_setupRows _ hi h.format) _ (mem_setupRows _ hr hs) (patterns_agree hmi hm) with
    he | hc | ⟨hq, m3, ht⟩ | ⟨⟨m0, m1⟩, hk⟩
  · exact .inl he
  · exact .inr hc
  · rw [← field_of_match hm m3, k3] at ht
    exact absurd ht (h.type_notMem hq)
  · rw [← field_of_match hm m0, ← field_of_match hm m1, k0, k1] at hk
    obtain ⟨hq, hk⟩ | ⟨hq, hk⟩ := hk
    · exact absurd hk (h.key_notMem_standard hq)
    · exact absurd hk (h.key_notMem_cdc hq)

end

/-! ## Completion words by their rows -/

/-- A completion word under a mask of PID, direction and the endpoint bits `e`, field by field (R127). -/
theorem word_and_mask (w : BitVec 12) (e : BitVec 4) :
    w &&& (0xF#4 ++ e ++ 1#1 ++ 0#3) =
      w.extractLsb' 8 4 ++ (w.extractLsb' 4 4 &&& e) ++ BitVec.ofBool (w.getLsbD 3) ++ 0#3 := by
  have hpe : w.extractLsb' 8 4 ++ w.extractLsb' 4 4 = w.extractLsb' 4 8 :=
    BitVec.extractLsb'_append_extractLsb'_eq_extractLsb' rfl
  have hped : w.extractLsb' 4 8 ++ w.extractLsb' 3 1 = w.extractLsb' 3 9 :=
    BitVec.extractLsb'_append_extractLsb'_eq_extractLsb' rfl
  have hd : w.extractLsb' 3 1 = BitVec.ofBool (w.getLsbD 3) := by
    ext i hi
    simp [show i = 0 by omega]
  have hw : w.extractLsb' 8 4 ++ w.extractLsb' 4 4 ++ w.extractLsb' 3 1 ++ w.extractLsb' 0 3 = w := by
    rw [hpe, hped]
    exact BitVec.extractLsb'_append_extractLsb'
  calc w &&& (0xF#4 ++ e ++ 1#1 ++ 0#3)
      = (w.extractLsb' 8 4 ++ w.extractLsb' 4 4 ++ w.extractLsb' 3 1 ++ w.extractLsb' 0 3) &&&
          (0xF#4 ++ e ++ 1#1 ++ 0#3) := by rw [hw]
    _ = (w.extractLsb' 8 4 &&& BitVec.allOnes 4) ++ (w.extractLsb' 4 4 &&& e) ++
          (w.extractLsb' 3 1 &&& BitVec.allOnes 1) ++ (w.extractLsb' 0 3 &&& 0#3) := by
        rw [BitVec.and_append, BitVec.and_append, BitVec.and_append]; rfl
    _ = _ := by rw [BitVec.and_allOnes, BitVec.and_allOnes, BitVec.and_zero, hd]

/-- The same in the 32 bits of a table row, by the values of the fields. -/
theorem word_and_rowMask {w : BitVec 12} {pid e x : BitVec 4} {tx : Bool} (hp : w.extractLsb' 8 4 = pid)
    (ht : w.getLsbD 3 = tx) (hx : w.extractLsb' 4 4 &&& e = x) :
    w.setWidth 32 &&& (0xF#4 ++ e ++ 1#1 ++ 0#3).setWidth 32 =
      (pid ++ x ++ BitVec.ofBool tx ++ 0#3).setWidth 32 := by
  rw [← BitVec.setWidth_and, word_and_mask, hp, ht, hx]

/-- The word is a word of the row, and an endpoint 0 row takes those of endpoint 0 (R138). -/
def RowTakes (w : BitVec 12) (i : Instr) : Prop :=
  i.row ∈ completionRows ∧ w.setWidth 32 &&& i.row.mask = i.row.pattern ∧
    (w.extractLsb' 4 4 = 0 → i.row.mask = 0xFF8)

/-- The two rows of a PID and a direction: endpoint 0's has the endpoint bits in its mask, the other not (R138). -/
theorem rowTakes_ite {w : BitVec 12} {pid : BitVec 4} {tx : Bool} {i j : Instr}
    (h : w.extractLsb' 8 4 = pid ∧ w.getLsbD 3 = tx)
    (hi : i.row ∈ completionRows ∧ i.row.mask = 0xFF8 ∧
      i.row.pattern = (pid ++ 0#4 ++ BitVec.ofBool tx ++ 0#3).setWidth 32)
    (hj : j.row ∈ completionRows ∧ j.row.mask = 0xF08 ∧
      j.row.pattern = (pid ++ 0#4 ++ BitVec.ofBool tx ++ 0#3).setWidth 32) :
    RowTakes w (if w.extractLsb' 4 4 = 0 then i else j) := by
  obtain ⟨hp, ht⟩ := h
  split
  · next hz =>
    obtain ⟨hr, hm, hpat⟩ := hi
    refine ⟨hr, ?_, fun _ => hm⟩
    rw [hm, hpat]
    exact word_and_rowMask (e := 0xF) hp ht (by rw [hz]; rfl)
  · next hz =>
    obtain ⟨hr, hm, hpat⟩ := hj
    refine ⟨hr, ?_, fun h => absurd h hz⟩
    rw [hm, hpat]
    exact word_and_rowMask (e := 0) hp ht BitVec.and_zero

/-- A word decodes to a row that takes it: under a row's mask its fields are the row's pattern. -/
theorem decodeCompletion_takes {w : BitVec 12} {i : Instr} (h : decodeCompletion w = some i) : RowTakes w i := by
  simp only [decodeCompletion] at h
  split at h
  · next hs =>
    cases h
    exact rowTakes_ite hs ⟨by simp [completionRows, Instr.row], rfl, rfl⟩
      ⟨by simp [completionRows, Instr.row], rfl, rfl⟩
  · split at h
    · next ho =>
      cases h
      exact rowTakes_ite ho ⟨by simp [completionRows, Instr.row], rfl, rfl⟩
        ⟨by simp [completionRows, Instr.row], rfl, rfl⟩
    · split at h
      · next hi =>
        cases h
        exact rowTakes_ite hi ⟨by simp [completionRows, Instr.row], rfl, rfl⟩
          ⟨by simp [completionRows, Instr.row], rfl, rfl⟩
      · cases h

/-- The PIDs and directions of the completion rows (R138). -/
def rowKinds : List (BitVec 4 × Bool) := [(pidSetup, false), (pidOut, false), (pidIn, true)]

/-- A word that decodes to nothing has the PID and direction of no row. -/
theorem kind_notMem_of_none {w : BitVec 12} (h : decodeCompletion w = none) :
    (w.extractLsb' 8 4, w.getLsbD 3) ∉ rowKinds := by
  simp only [decodeCompletion] at h
  split_ifs at h with hs ho hi
  simp only [rowKinds, List.mem_cons, Prod.mk.injEq, List.not_mem_nil, or_false, hs, ho, hi, not_false_eq_true]

/-- A row's mask has PID and direction, and its pattern those of a row's kind. -/
theorem completionRows_kind : ∀ r ∈ completionRows, r.mask.extractLsb' 8 4 = BitVec.allOnes 4 ∧
    r.mask.getLsbD 3 = true ∧ (r.pattern.extractLsb' 8 4, r.pattern.getLsbD 3) ∈ rowKinds := by decide +kernel

/-- A word that decodes to nothing matches no row (R138). -/
theorem no_row_of_none {w : BitVec 12} (h : decodeCompletion w = none) {r : OpRow} (hr : r ∈ completionRows) :
    w.setWidth 32 &&& r.mask ≠ r.pattern := by
  intro hm
  obtain ⟨hp, hd, hk⟩ := completionRows_kind r hr
  rw [← field_of_match hm hp, ← hm, BitVec.getLsbD_and, hd, BitVec.extractLsb'_setWidth_of_le (by decide),
    BitVec.getLsbD_setWidth] at hk
  exact kind_notMem_of_none h (by simpa using hk)

/-! ## Events -/

/-- The first of a list by a test is its head if that passes. -/
theorem map_find?_cons {α β : Type} (f : α → Bool) (g : α → β) (x : α) (l : List α) :
    ((x :: l).find? f).map g = if f x then some (g x) else (l.find? f).map g := by
  cases h : f x <;> simp [h]

/-- The event serviced is the first pending one in the order of R371. -/
theorem decodeEvent_find (p : BitVec 8) (g : Bool) : decodeEvent p g =
    ([(0, Instr.evUsbrst), (3, .evTokdne), (5, .evResume g), (7, .evStall), (2, .evSoftok), (4, .evSleep),
      (1, .evError)].find? fun x => p.getLsbD x.1).map Prod.snd := by
  simp only [decodeEvent, map_find?_cons, List.find?_nil, Option.map_none]

/-- TOKDNE is pending while the queue is not empty, the other events by their `istat` bits (R45, R371). -/
theorem pending_bit (s : Machine.State) {n : Nat} (hn : n < 8) : (Machine.pending s).getLsbD n =
    ((if n = 3 then decide (s.sie.tokq ≠ []) else s.dev.istat.getLsbD n) && s.dev.inten.getLsbD n) := by
  have hb : Machine.bitTokdne.getLsbD n = decide (n = 3) := by
    interval_cases n <;> rfl
  have hq : (if s.sie.tokq = [] then 0 else Machine.bitTokdne).getLsbD n =
      (decide (s.sie.tokq ≠ []) && decide (n = 3)) := by
    split
    · next h => simp [h]
    · next h => simp [h, hb]
  simp only [Machine.pending, Machine.istat, BitVec.getLsbD_and, BitVec.getLsbD_or, BitVec.getLsbD_not, hb, hq, hn]
  by_cases h3 : n = 3 <;> simp [h3]

/-- Settles O59: a packet is the encoding of what it decodes to, and a row that matched more bits of its key would be
one that the operation's well-formedness excludes; completions by their fields, events in their order. -/
theorem operationsDecodeByTheirRows : Obligations.OperationsDecodeByTheirRows := by
  refine ⟨fun p => ?_, fun _ => ⟨fun _ => decodeCompletion_takes, fun h _ => no_row_of_none h⟩, decodeEvent_find,
    fun s _ hn => pending_bit s hn⟩
  have h := names_decodeSetup p
  obtain ⟨hr, hm⟩ := h.row
  exact ⟨h.wf, hr, h.format, h.bytes, hm, fun _ hr hs hm => h.row_finest hr hs hm⟩

end Sys2Proof
end

section
/-! PROOFS. The run's loop (40_bus_interface.md): which line a step takes, and that its operation runs (R135, R370). -/

namespace Sys2Proof.Machine

/-- What an agent's step leaves, with the waiting client calls checked again (R244, R452). -/
def thenWake (r : Res) : Res := andThen r fun t => .next (wakeClient t)

/-- An event is serviced only while one is pending (R370). -/
theorem pending_ne_zero {s : State} {g : Bool} {i : Instr} (h : decodeEvent (pending s) g = some i) :
    pending s ≠ 0 := by
  intro h0
  rw [h0] at h
  cases h

section
variable {s : State} {held rest : List Line} {l : Line}

/-- The first line that is not held is taken and runs on the state without it (R135). -/
theorem step_takes (hok : buildOk s.cfg = true) (hh : ∀ x ∈ held, Held s x) (hs : s.lines = held ++ l :: rest)
    (hl : ¬ Held s l) : step s = thenWake (runLine l { s with lines := held ++ rest }) := by
  unfold step runStep runNext
  rw [if_pos hok, hs, takeLine_held hh hl]
  rfl

/-- With no line to take the dispatcher runs if the interrupt is requested (R175, R370). -/
theorem step_noLine (hok : buildOk s.cfg = true) (hh : ∀ x ∈ held, Held s x) (hs : s.lines = held) :
    step s = thenWake (if irq s then runDispatch (Config.freeGenuine s.draws) { s with draws := s.draws + 1 }
      else .next s) := by
  unfold step runStep runNext
  rw [if_pos hok, hs, takeLine_none hh]
  rfl

/-- A dispatcher step services the decoded event (R370). -/
theorem runDispatch_some {g : Bool} {i : Instr} (h : decodeEvent (pending s) g = some i) :
    runDispatch g s = exec i s := by unfold runDispatch; rw [h]

/-- A dispatcher step with nothing pending has no effect (R370; log 22). -/
theorem runDispatch_none {g : Bool} (h : pending s = 0) : runDispatch g s = .next s := by
  unfold runDispatch; rw [h]; rfl

/-- A client's word runs the operation it decodes to (R133). -/
theorem runClient_ok {word : List Byte} {i : Instr} (h : decode .cmd word = .ok i) : runClient word s = exec i s := by
  unfold runClient; rw [h]

/-- A write whose range meets a ROM range is refused (R83). -/
theorem store_rom {a : Addr} {bs : List Byte} {r : Region} {y : Nat} (hn : a.toNat + bs.length ≤ 2 ^ 32)
    (hr : r ∈ romRegions s.cfg) (hy : InRange y r.base r.size) (hya : InRange y a.toNat bs.length) :
    store s a bs = .refused .romWrite := by
  have hm : ((romRegions s.cfg).any fun r => meets r a.toNat bs.length) = true :=
    List.any_eq_true.2 ⟨r, hr, by simp only [meets, decide_eq_true_eq]; omega⟩
  unfold store
  rw [if_neg (by omega), if_pos hm]

/-- A write that meets no ROM range stores its bytes and nothing else (R96). -/
theorem store_isButStored {a : Addr} {bs : List Byte} (hw : memWf s = true) (h : Writable s.cfg a.toNat bs.length) :
    ∃ t, store s a bs = .next t ∧ IsButStored s s t a bs := by
  have hst := store_ok h.1 h.2
  exact ⟨_, hst, rfl, ((store_next hst).2.2 hw).2⟩

end

/-- Settles O44: the line taken and its operation, form by form. -/
theorem stepRunsTheDecodedOperation : Obligations.StepRunsTheDecodedOperation := by
  intro s held rest hok hh
  have takes {l : Line} (hs : s.lines = held ++ l :: rest) (hl : ¬ Held s l) := step_takes hok hh hs hl
  refine ⟨fun word i hs hd hc => ?_, fun g i hs hd => ?_, fun g hs hp => ?_, fun v hs => ?_,
    fun a data hs hn hw hwr => ?_, fun a data r y hs hn hlen hr hy hya => ?_, fun l hs hl => takes hs hl,
    fun hs hp => ?_, fun i hs hd => ?_⟩
  · rw [takes hs, runLine, runClient_ok hd]
    · rfl
    · rintro ⟨hw, ⟨_, _, h⟩ | ⟨_, h, hne⟩⟩
      · cases h
      · cases h
        obtain ⟨e, rfl⟩ := hc hw
        exact hne e hd
  · rw [takes hs (by simp [Held]), runLine, runDispatch_some (by exact hd)]
    rfl
  · rw [takes hs (by simp [Held]), runLine, runDispatch_none (by exact hp)]
    rfl
  · rw [takes hs (by simp [Held])]
    rfl
  · obtain ⟨t, ht, hbut⟩ := store_isButStored (s := { s with lines := held ++ rest }) hw hwr
    refine ⟨t, ?_, hbut⟩
    rw [takes hs fun h => hn h.1, runLine, ht]
    rfl
  · rw [takes hs fun h => hn h.1, runLine, store_rom hlen (by exact hr) hy hya]
    rfl
  · rw [step_noLine hok hh hs, if_neg (by simp [irq, hp])]
    rfl
  · rw [step_noLine hok hh hs, if_pos (by simpa [irq] using pending_ne_zero hd), runDispatch_some (by exact hd)]
    rfl

end Sys2Proof.Machine
end

section
/-! PROOFS. The SIE's transactions and the bus signals (40_bus_interface.md): the filter of R161 as one equivalence, a
store whose completion does not read memory said once, and then each transaction's checks in their order. -/

namespace Sys2Proof.Machine

section
variable {s : State} {a : BitVec 7} {e : BitVec 4} {i : EpId}

/-! ## The filter -/

/-- A token reaches an endpoint exactly when the SIE's filter finds it and it has the token's direction (R161). -/
theorem reaches_iff {d : Dir} : Reaches s a e d i ↔ tokenTo s a e = some i ∧ hasDir s.cfg i d = true := by
  rw [tokenTo_some, hasDir_both]
  simp only [and_assoc]

/-- A SETUP that does not reach EP0 gets no answer (R161(d)). -/
theorem hostSetup_ignored (h : ¬ Reaches s a e .rx .ep0) (data : List Byte) :
    hostSetup a e data s = .next (answered s .none) :=
  if_pos fun ht => h (reaches_iff.2 ⟨ht, rfl⟩)

/-- An OUT that reaches no endpoint gets no answer (R161). -/
theorem hostOut_ignored (h : ∀ i, ¬ Reaches s a e .rx i) (p : Bool) (data : List Byte) :
    hostOut a e p data s = .next (answered s .none) := by
  unfold hostOut
  cases ht : tokenTo s a e with
  | none => rfl
  | some i => exact if_neg fun hd => h i (reaches_iff.2 ⟨ht, hd⟩)

/-- An IN that reaches no endpoint gets no answer (R161). -/
theorem hostIn_ignored (h : ∀ i, ¬ Reaches s a e .tx i) (ack : Bool) :
    hostIn a e ack s = .next (answered s .none) := by
  unfold hostIn
  cases ht : tokenTo s a e with
  | none => rfl
  | some i => exact if_neg fun hd => h i (reaches_iff.2 ⟨ht, hd⟩)

/-- An OUT that reaches an endpoint is that endpoint's transaction (R163). -/
theorem hostOut_reached (h : Reaches s a e .rx i) (p : Bool) (data : List Byte) :
    hostOut a e p data s = sieOut i p data s := by
  obtain ⟨ht, hd⟩ := reaches_iff.1 h
  unfold hostOut
  rw [ht]
  exact if_pos hd

/-- An IN that reaches an endpoint is that endpoint's transaction (R164). -/
theorem hostIn_reached (h : Reaches s a e .tx i) (ack : Bool) : hostIn a e ack s = sieIn i ack s := by
  obtain ⟨ht, hd⟩ := reaches_iff.1 h
  unfold hostIn
  rw [ht]
  exact if_pos hd

/-- Neither held off nor without a slot: the transaction is served (R163, R164). -/
theorem not_mustNak_of_owned {x : Slot} (hh : ¬ HeldOff s) (ho : x.own = true) : ¬ mustNak s x = true := by
  simp [mustNak_iff, hh, ho]

/-- Bytes stored, then a change of the state that neither reads nor writes memory: the changed state, but with
exactly those bytes stored (R96, R165). -/
theorem store_then {b : Addr} {bs : List Byte} (hw : memWf s = true) (h : Writable s.cfg b.toNat bs.length)
    {f : State → State} (hcfg : (f s).cfg = s.cfg) (hmem : ∀ m, f { s with mem := m } = { f s with mem := m }) :
    ∃ t, andThen (store s b bs) (fun v => .next (f v)) = .next t ∧ IsButStored s (f s) t b bs := by
  have hst := store_ok h.1 h.2
  rw [hst]
  refine ⟨_, congrArg Host.Outcome.next (hmem _), rfl, fun x => ?_⟩
  rw [← ((store_next hst).2.2 hw).2 x]
  apply peek_congr
  · exact hcfg
  · rfl

/-! ## SETUP -/

/-- The completion of a SETUP of `n` bytes that `s` received, once they are stored: its slot and the tokens'
suspension (R162, R165). -/
def setupCompleted (s : State) (n : Nat) (t : State) : State :=
  let k := s.sie.odd.ep0.rx
  answer (suspend true (complete t .ep0 .rx k
    { slot s .ep0 .rx k with bc := BitVec.ofNat 10 n, pid := pidSetup, data01 := false })) .ack

/-- While the tokens are held off, or without a slot, a SETUP gets no answer (R162). -/
theorem hostSetup_unserved {data : List Byte} (hr : Reaches s a e .rx .ep0)
    (h : HeldOff s ∨ (slot s .ep0 .rx s.sie.odd.ep0.rx).own = false) :
    hostSetup a e data s = .next (answered s .none) := by
  unfold hostSetup
  rw [if_neg (not_not.2 (reaches_iff.1 hr).1)]
  by_cases hh : HeldOff s
  · exact if_pos ((heldOff_iff s).2 hh)
  · rw [if_neg (mt (heldOff_iff s).1 hh)]
    exact if_pos (h.resolve_left hh)

/-- A SETUP whose slot may take it: an overlong one is an error, and any other is stored and completed (R162). -/
theorem hostSetup_served {data : List Byte} (hr : Reaches s a e .rx .ep0) (hh : ¬ HeldOff s)
    (ho : (slot s .ep0 .rx s.sie.odd.ep0.rx).own = true) :
    hostSetup a e data s =
      let x := slot s .ep0 .rx s.sie.odd.ep0.rx
      if x.bc.toNat < data.length then overrun s x
      else andThen (store s x.addr data) fun t => .next (setupCompleted s data.length t) := by
  unfold hostSetup
  rw [if_neg (not_not.2 (reaches_iff.1 hr).1), if_neg (mt (heldOff_iff s).1 hh)]
  exact if_neg (by simp [ho])

/-! ## OUT -/

section
variable {p : Bool} {data : List Byte}

/-- A stalled slot answers STALL before anything else (R163, R172). -/
theorem sieOut_stall (h : (slot s i .rx (s.sie.odd.get i).rx).stall = true) :
    sieOut i p data s = .next (sieStall s) := if_pos h

variable (hst : (slot s i .rx (s.sie.odd.get i).rx).stall = false)
include hst

/-- While the tokens are held off, or without a slot, an OUT is NAKed (R163). -/
theorem sieOut_nak (h : HeldOff s ∨ (slot s i .rx (s.sie.odd.get i).rx).own = false) :
    sieOut i p data s = .next (answered s .nak) := by
  unfold sieOut
  rw [if_neg (by simp [hst])]
  exact if_pos ((mustNak_iff s _).2 h)

variable (hh : ¬ HeldOff s) (ho : (slot s i .rx (s.sie.odd.get i).rx).own = true)
include hh ho

/-- An OUT whose slot may take it: an overlong one is an error, a duplicate is ACKed and discarded, and any other is
stored and completed (R163). -/
theorem sieOut_served :
    sieOut i p data s =
      let k := (s.sie.odd.get i).rx
      let x := slot s i .rx k
      if x.bc.toNat < data.length then overrun s x
      else if p ≠ x.data01 then .next (answered s .ack)
      else andThen (store s x.addr data) fun t =>
        .next (answer (complete t i .rx k { x with bc := BitVec.ofNat 10 data.length, pid := pidOut }) .ack) := by
  unfold sieOut
  rw [if_neg (by simp [hst])]
  exact if_neg (not_mustNak_of_owned hh ho)

end

/-! ## IN -/

section
variable {ack : Bool}

/-- A stalled slot answers STALL before anything else (R164, R172). -/
theorem sieIn_stall (h : (slot s i .tx (s.sie.odd.get i).tx).stall = true) :
    sieIn i ack s = .next (sieStall s) := if_pos h

variable (hst : (slot s i .tx (s.sie.odd.get i).tx).stall = false)
include hst

/-- While the tokens are held off, or without a slot, an IN is NAKed (R164). -/
theorem sieIn_nak (h : HeldOff s ∨ (slot s i .tx (s.sie.odd.get i).tx).own = false) :
    sieIn i ack s = .next (answered s .nak) := by
  unfold sieIn
  rw [if_neg (by simp [hst])]
  exact if_pos ((mustNak_iff s _).2 h)

/-- Otherwise the slot's bytes as they stand in memory are sent, and the packet completes if the host ACKs it
(R164, R165). -/
theorem sieIn_sent (hh : ¬ HeldOff s) (ho : (slot s i .tx (s.sie.odd.get i).tx).own = true)
    (hn : (slot s i .tx (s.sie.odd.get i).tx).addr.toNat + (slot s i .tx (s.sie.odd.get i).tx).bc.toNat ≤ 2 ^ 32) :
    sieIn i ack s =
      let k := (s.sie.odd.get i).tx
      let x := slot s i .tx k
      let sent := Answer.data x.data01 (peeks s x.addr.toNat x.bc.toNat)
      .next (if ack then packetQueued s i .tx k { x with own := false, pid := pidIn } sent else answered s sent) := by
  unfold sieIn
  rw [if_neg (by simp [hst]), if_neg (not_mustNak_of_owned hh ho), load_ok hn]
  rfl

end

end

/-! ## The obligations -/

/-- Settles O39, by the filter of each token. -/
theorem tokenFilterIsSilent : Obligations.TokenFilterIsSilent :=
  fun _ _ _ p ack data =>
    ⟨fun h => hostSetup_ignored h data, fun h => hostOut_ignored h p data, fun h => hostIn_ignored h ack⟩

/-- Settles O40: the checks of R162 in their order. -/
theorem setupTransaction : Obligations.SetupTransaction := by
  intro s a e data hw hr
  refine ⟨hostSetup_unserved hr, fun hh ho hlen hwr => ?_, fun hh ho hlen hwr => ?_⟩
  · rw [runLine, hostSetup_served hr hh ho]
    simpa only [if_pos hlen] using overrun_ok hw hwr
  · rw [runLine, hostSetup_served hr hh ho]
    simp only [if_neg (Nat.not_lt.2 hlen)]
    obtain ⟨t, ht, hbut⟩ := store_then hw hwr (f := setupCompleted s data.length) rfl fun _ => rfl
    exact ⟨t, _, ht, rfl, hbut⟩

/-- Settles O41: the checks of R163 in their order. -/
theorem outTransaction : Obligations.OutTransaction := by
  intro s a e p data i hw hr
  simp only [runLine, hostOut_reached hr]
  refine ⟨sieOut_stall, sieOut_nak, ?_, ?_, ?_⟩
  · rintro ⟨hst, hh, ho⟩ hlen hwr
    rw [sieOut_served hst hh ho]
    simpa only [if_pos hlen] using overrun_ok hw hwr
  · rintro ⟨hst, hh, ho⟩ hlen hp
    rw [sieOut_served hst hh ho]
    simp only [if_neg (Nat.not_lt.2 hlen), if_pos hp]
  · rintro ⟨hst, hh, ho⟩ hlen hp hwr
    rw [sieOut_served hst hh ho]
    simp only [if_neg (Nat.not_lt.2 hlen), if_neg (not_not.2 hp)]
    exact store_then hw hwr rfl fun _ => rfl

/-- Settles O42: the checks of R164 in their order. -/
theorem inTransaction : Obligations.InTransaction := by
  intro s a e ack i hr
  simp only [runLine, hostIn_reached hr]
  exact ⟨sieIn_stall, sieIn_nak, sieIn_sent⟩

/-- Settles O43, signal by signal; the frame number is cut to its 11 bits by the register (R168). -/
theorem busSignalsSetBits : Obligations.BusSignalsSetBits := by
  intro s f x
  have hframe : BitVec.ofNat 11 (f % 2 ^ 11) = BitVec.ofNat 11 f := BitVec.eq_of_toNat_eq (by simp)
  refine ⟨rfl, ?_, rfl, rfl, fun hx => if_neg hx⟩
  rw [hframe]
  rfl

end Sys2Proof.Machine
end

section
/-! PROOFS. The strings of the descriptor model (41_descriptor_model.md): a checked static string is the UTF-8 of the units
it decodes to (R207), an ASCII string decodes character by character (R208), and where an encoded string has its units
(R206). -/

namespace Sys2Proof.Machine

/-! ## The bytes of an encoded string (R206) -/

/-- The rule's two bytes of a unit are the model's (R206). -/
theorem utf16Of_eq_bytes16 : utf16Of = bytes16 := by
  funext u
  have hlo : BitVec.ofNat 8 u.toNat = lo8 u := BitVec.eq_of_toNat_eq (by simp [lo8])
  have hhi : BitVec.ofNat 8 (u.toNat / 256) = hi8 u :=
    BitVec.eq_of_toNat_eq (by simp [hi8, Nat.shiftRight_eq_div_pow])
  rw [utf16Of, bytes16, hlo, hhi]

/-- Each unit has two bytes (R206). -/
@[simp] theorem length_flatMap_bytes16 (u : List (BitVec 16)) : (u.flatMap bytes16).length = 2 * u.length := by
  simp [List.length_flatMap, bytes16, Nat.mul_comm]

/-- Unit `j` has its low byte at `2 * j` and its high byte after it (R206). -/
theorem getElem?_flatMap_bytes16 (u : List (BitVec 16)) (j : Nat) :
    (u.flatMap bytes16)[2 * j]? = u[j]?.map lo8 ∧ (u.flatMap bytes16)[2 * j + 1]? = u[j]?.map hi8 := by
  induction u generalizing j with
  | nil => exact ⟨rfl, rfl⟩
  | cons x u ih =>
    cases j with
    | zero => exact ⟨rfl, rfl⟩
    | succ j => exact ih j

/-- An encoded string has a header and two bytes for each unit that is not cut (R206). -/
theorem length_encodeUnits (mps : Nat) (u : List (BitVec 16)) :
    (encodeUnits mps u).length = 2 + 2 * min u.length ((mps - 2) / 2) := by
  simp only [encodeUnits, List.length_cons, length_flatMap_bytes16, List.length_take]
  omega

/-- Unit `j`, if it is not cut, stands low byte first after the header (R206). -/
theorem getElem?_encodeUnits {mps j : Nat} {u : List (BitVec 16)} (hj : j < min u.length ((mps - 2) / 2)) :
    (encodeUnits mps u)[2 + 2 * j]? = u[j]?.map lo8 ∧ (encodeUnits mps u)[3 + 2 * j]? = u[j]?.map hi8 := by
  have h := getElem?_flatMap_bytes16 (u.take (min u.length ((mps - 2) / 2))) j
  rw [List.getElem?_take_of_lt hj] at h
  rw [Nat.add_comm 2, Nat.add_comm 3]
  exact h

/-- Units that fit are all encoded (R206). -/
theorem encodeUnits_of_fits {mps : Nat} {u : List (BitVec 16)} (h : 2 + 2 * u.length ≤ mps) :
    encodeUnits mps u = BitVec.ofNat 8 (2 + 2 * u.length) :: 0x03 :: u.flatMap utf16Of := by
  have hk : min u.length ((mps - 2) / 2) = u.length := by omega
  simp only [encodeUnits, hk, List.take_length, utf16Of_eq_bytes16]

/-! ## Static strings (R207) -/

/-- Bit 7 is clear below 0x80 alone (R207, R208). -/
theorem getLsbD_seven_eq_false {a : Byte} : a.getLsbD 7 = false ↔ a.toNat < 0x80 := by
  rw [← show a.msb = a.getLsbD 7 from BitVec.msb_eq_getLsbD_last a, BitVec.msb_eq_false_iff_two_mul_lt]
  omega

/-- The high bits of a byte are its quotient (R8). -/
theorem toNat_div_of_extractLsb' {a : Byte} {s n : Nat} {v : BitVec n} (hs : s + n = 8) (h : a.extractLsb' s n = v) :
    a.toNat / 2 ^ s = v.toNat := by
  have ha : a.toNat / 2 ^ s < 2 ^ n := Nat.div_lt_of_lt_mul (by rw [← Nat.pow_add, hs]; exact a.isLt)
  rw [← h, BitVec.extractLsb'_toNat, Nat.shiftRight_eq_div_pow, Nat.mod_eq_of_lt ha]

/-- `10xxxxxx` as a number (R207). -/
theorem toNat_div_of_isCont {b : Byte} (h : isCont b = true) : b.toNat / 64 = 2 :=
  toNat_div_of_extractLsb' rfl (beq_iff_eq.1 h)

/-- Fields put side by side, as a number (R8). -/
theorem toNat_append_eq_add {m n : Nat} (x : BitVec m) (y : BitVec n) : (x ++ y).toNat = x.toNat * 2 ^ n + y.toNat := by
  rw [BitVec.toNat_append, ← Nat.shiftLeft_add_eq_or_of_lt y.isLt, Nat.shiftLeft_eq]

/-- The unit of a 2-byte sequence as a number (R207). -/
theorem toNat_unit2 (a b : Byte) : (unit2 a b).toNat = a.toNat % 32 * 64 + b.toNat % 64 :=
  (toNat_append_eq_add (0#5 ++ a.extractLsb' 0 5) (b.extractLsb' 0 6)).trans (by rw [toNat_append_eq_add]; simp)

/-- The unit of a 3-byte sequence as a number (R207). -/
theorem toNat_unit3 (a b c : Byte) :
    (unit3 a b c).toNat = (a.toNat % 16 * 64 + b.toNat % 64) * 64 + c.toNat % 64 :=
  (toNat_append_eq_add (a.extractLsb' 0 4 ++ b.extractLsb' 0 6) (c.extractLsb' 0 6)).trans
    (by rw [toNat_append_eq_add]; simp)

/-- A byte below 0x80 is the UTF-8 of its own value (R207). -/
theorem utf8Of_setWidth {a : Byte} (h : a.toNat < 0x80) : utf8Of (a.setWidth 16) = [a] := by
  have hn : (a.setWidth 16).toNat = a.toNat := BitVec.toNat_setWidth_of_le (by decide)
  simp [utf8Of, hn, h]

/-- A 2-byte sequence that is not overlong is the UTF-8 of its unit (R207). -/
theorem utf8Of_unit2 {a b : Byte} (ha : a.extractLsb' 5 3 = 6) (hb : isCont b = true)
    (h : 0x80 ≤ (unit2 a b).toNat) : utf8Of (unit2 a b) = [a, b] := by
  have ha : a.toNat / 32 = 6 := toNat_div_of_extractLsb' rfl ha
  have hb := toNat_div_of_isCont hb
  have hu := toNat_unit2 a b
  have h0 : 0xC0 + (unit2 a b).toNat / 64 = a.toNat := by omega
  have h1 : 0x80 + (unit2 a b).toNat % 64 = b.toNat := by omega
  rw [utf8Of, if_neg (by omega), if_pos (by omega), h0, h1]
  simp

/-- A 3-byte sequence that is not overlong is the UTF-8 of its unit (R207). -/
theorem utf8Of_unit3 {a b c : Byte} (ha : a.extractLsb' 4 4 = 14) (hb : isCont b = true) (hc : isCont c = true)
    (h : 0x800 ≤ (unit3 a b c).toNat) : utf8Of (unit3 a b c) = [a, b, c] := by
  have ha : a.toNat / 16 = 14 := toNat_div_of_extractLsb' rfl ha
  have hb := toNat_div_of_isCont hb
  have hc := toNat_div_of_isCont hc
  have hu := toNat_unit3 a b c
  have h0 : 0xE0 + (unit3 a b c).toNat / 4096 = a.toNat := by omega
  have h1 : 0x80 + (unit3 a b c).toNat / 64 % 64 = b.toNat := by omega
  have h2 : 0x80 + (unit3 a b c).toNat % 64 = c.toNat := by omega
  rw [utf8Of, if_neg (by omega), if_neg (by omega), h0, h1, h2]
  simp

/-- A byte below 0x80 decodes to itself (R207). -/
theorem utf8ToUnits_ascii_cons {a : Byte} (ha : a.getLsbD 7 = false) (rest : List Byte) :
    utf8ToUnits (a :: rest) = a.setWidth 16 :: utf8ToUnits rest := by
  rw [utf8ToUnits.eq_def]
  exact if_pos ha

/-- A 2-byte sequence decodes to its unit (R207). -/
theorem utf8ToUnits_two_cons {a b : Byte} (ha : ¬ a.getLsbD 7 = false) (hab : a.extractLsb' 5 3 = 6 ∧ isCont b = true)
    (rest : List Byte) : utf8ToUnits (a :: b :: rest) = unit2 a b :: utf8ToUnits rest := by
  rw [utf8ToUnits.eq_def]
  exact (if_neg ha).trans (if_pos hab)

/-- A 3-byte sequence decodes to its unit (R207). -/
theorem utf8ToUnits_three_cons {a b c : Byte} (ha : ¬ a.getLsbD 7 = false)
    (hab : ¬ (a.extractLsb' 5 3 = 6 ∧ isCont b = true)) (h : a.extractLsb' 4 4 = 14 ∧ isCont b = true ∧ isCont c = true)
    (rest : List Byte) : utf8ToUnits (a :: b :: c :: rest) = unit3 a b c :: utf8ToUnits rest := by
  rw [utf8ToUnits.eq_def]
  exact (if_neg ha).trans ((if_neg hab).trans (if_pos h))

/-- `b` is the UTF-8 of the units `u`, none of them a surrogate (R207). -/
def IsUtf8Of (b : List Byte) (u : List (BitVec 16)) : Prop :=
  b = u.flatMap utf8Of ∧ ∀ x ∈ u, ¬ (0xD800 ≤ x.toNat ∧ x.toNat ≤ 0xDFFF)

/-- The UTF-8 of one more unit stands before that of the others (R207). -/
theorem IsUtf8Of.cons {b s : List Byte} {x : BitVec 16} {u : List (BitVec 16)} (h : IsUtf8Of b u) (hx : utf8Of x = s)
    (hs : ¬ (0xD800 ≤ x.toNat ∧ x.toNat ≤ 0xDFFF)) : IsUtf8Of (s ++ b) (x :: u) :=
  ⟨by rw [List.flatMap_cons, hx, ← h.1], List.forall_mem_cons.2 ⟨hs, h.2⟩⟩

/-- A checked static string is the UTF-8 of the units it decodes to, and none of them is a surrogate (R207). -/
theorem isUtf8Of_utf8ToUnits {b : List Byte} (h : utf8Valid b = true) : IsUtf8Of b (utf8ToUnits b) := by
  fun_induction utf8Valid b with
  | case1 => exact ⟨rfl, by simp [utf8ToUnits]⟩
  | case2 a rest ha ih =>
    have hlt := getLsbD_seven_eq_false.1 ha
    rw [utf8ToUnits_ascii_cons ha]
    exact (ih h).cons (utf8Of_setWidth hlt) (by rw [BitVec.toNat_setWidth_of_le (by decide)]; omega)
  | case4 a ha b rest hab ih =>
    simp only [Bool.and_eq_true, decide_eq_true_eq] at h
    obtain ⟨hlong, hrest⟩ := h
    rw [utf8ToUnits_two_cons ha hab]
    exact (ih hrest).cons (utf8Of_unit2 hab.1 hab.2 hlong) (by rw [toNat_unit2]; omega)
  | case6 a ha b hab c rest ih =>
    simp only [Bool.and_eq_true, decide_eq_true_eq, beq_iff_eq, Bool.not_eq_true', ← Bool.not_eq_true] at h
    obtain ⟨⟨⟨⟨⟨h14, hb⟩, hc⟩, hlong⟩, hsur⟩, hrest⟩ := h
    rw [utf8ToUnits_three_cons ha hab ⟨h14, hb, hc⟩]
    exact (ih hrest).cons (utf8Of_unit3 h14 hb hc hlong) hsur
  | case3 | case5 => cases h

/-- What the build check of a static string gives (R207, R208). -/
theorem staticStringOk_iff {c : Params} {b : List Byte} : staticStringOk c b = true ↔
    utf8Valid b = true ∧ 2 + 2 * (utf8ToUnits b).length ≤ c.ep0Mps ∧ 2 + 2 * (utf8ToUnits b).length ≤ 255 := by
  simp only [staticStringOk, Bool.and_eq_true, decide_eq_true_eq, and_assoc]

/-- The build checks of the strings: the static ones, and the serial string's bytes (R207, R208). -/
theorem stringsOk_of_buildOk {c : Params} (h : buildOk c = true) :
    (∀ b ∈ c.manufacturer :: c.product :: c.ifNames, staticStringOk c b = true) ∧ ∀ b ∈ c.serial, b.toNat < 0x80 := by
  simp only [buildOk, stringsOk, Bool.and_eq_true, List.all_eq_true, Bool.not_eq_true', getLsbD_seven_eq_false] at h
  obtain ⟨-, -, -, -, -, -, ⟨⟨⟨hman, hprod⟩, hif⟩, hser⟩, -⟩ := h
  exact ⟨List.forall_mem_cons.2 ⟨hman, List.forall_mem_cons.2 ⟨hprod, hif⟩⟩, hser⟩

/-- A string of the table other than the serial string is a static one (R200, R201). -/
theorem static_of_table {c : Params} {i : Nat} {src : List Byte} (hi : i ≠ 2)
    (h : ([c.manufacturer, c.product, c.serial] ++ c.ifNames)[i]? = some src) :
    src ∈ c.manufacturer :: c.product :: c.ifNames ∧ stringSource c (i + 1) = src := by
  match i with
  | 0 | 1 => cases h; simp [stringSource]
  | i + 3 =>
    have h : c.ifNames[i]? = some src := h
    exact ⟨by simp [List.mem_of_getElem? h], by simp [stringSource, h]⟩

/-! ## The serial string (R208, R502) -/

/-- An ASCII string decodes to its characters (R207). -/
theorem utf8ToUnits_of_ascii {b : List Byte} (h : ∀ a ∈ b, a.toNat < 0x80) : utf8ToUnits b = b.map (·.setWidth 16) := by
  induction b with
  | nil => simp [utf8ToUnits]
  | cons a b ih =>
    obtain ⟨ha, hb⟩ := List.forall_mem_cons.1 h
    rw [utf8ToUnits_ascii_cons (getLsbD_seven_eq_false.2 ha), ih hb, List.map_cons]

/-- The low byte of a character's unit is the character (R206). -/
@[simp] theorem lo8_setWidth (a : Byte) : lo8 (a.setWidth 16) = a :=
  (BitVec.extractLsb'_setWidth_of_le (by decide)).trans BitVec.extractLsb'_eq_self

/-- The high byte of a character's unit is 0 (R206). -/
@[simp] theorem hi8_setWidth (a : Byte) : hi8 (a.setWidth 16) = 0 :=
  BitVec.eq_of_toNat_eq (by simp [hi8, Nat.shiftRight_eq_div_pow]; omega)

/-- Character `j` of an encoded ASCII string, if it is not cut, is followed by a zero (R206). -/
theorem getElem?_encodeUnits_ascii {mps j : Nat} {b : List Byte} (hj : j < min b.length ((mps - 2) / 2)) :
    let d := encodeUnits mps (b.map (·.setWidth 16))
    d[2 + 2 * j]? = b[j]? ∧ d[3 + 2 * j]? = some 0 := by
  obtain ⟨hlo, hhi⟩ := getElem?_encodeUnits (u := b.map (·.setWidth 16)) (by simpa using hj)
  have hb : b[j]? = some b[j] := List.getElem?_eq_getElem (by omega)
  exact ⟨hlo.trans (by simp [hb]), hhi.trans (by simp [hb])⟩

/-! ## The obligation -/

/-- Settles O10: a checked static string is the UTF-8 of its units and they fit, so only the ASCII serial string is cut. -/
theorem serialStringIsCut : Obligations.SerialStringIsCut := by
  intro c hok
  obtain ⟨hstatic, hserial⟩ := stringsOk_of_buildOk hok
  have henc : encodeString c 3 = encodeUnits c.ep0Mps (c.serial.map (·.setWidth 16)) := by
    rw [← utf8ToUnits_of_ascii hserial]
    rfl
  refine ⟨fun i src hi hsrc => ?_, hserial, ?_⟩
  · obtain ⟨hmem, hsource⟩ := static_of_table hi hsrc
    obtain ⟨hvalid, hmps, h255⟩ := staticStringOk_iff.1 (hstatic src hmem)
    obtain ⟨hutf8, hsur⟩ := isUtf8Of_utf8ToUnits hvalid
    exact ⟨_, hutf8, hsur, hmps, h255, by rw [encodeString, hsource, encodeUnits_of_fits hmps]⟩
  · have hlen := length_encodeUnits c.ep0Mps (c.serial.map (·.setWidth 16))
    have hfits := encodeString_length hok 3
    rw [List.length_map] at hlen
    rw [henc] at hfits ⊢
    exact ⟨hlen, hfits, by simp [encodeUnits], rfl, fun j hj => getElem?_encodeUnits_ascii hj⟩

end Sys2Proof.Machine
end

section
/-! PROOFS. The transfer engine's completions on an endpoint other than EP0 (42_transfer_engine.md): the OUT handler as
records, beside the IN handler's, and the two completion rows (R235, R236). -/

namespace Sys2Proof.Machine

/-- The OUT handler ends the transfer on a short packet or the last byte, and fires the callback (R236, R237). -/
theorem handleOut_end {s : State} (hok : buildOk s.cfg = true) {e : EpId} {k : Bool}
    (hdone : (s.ep.get e).remaining - (slot s e .rx k).bc.setWidth 16 = 0 ∨
      (slot s e .rx k).bc.toNat < mps s.cfg e) :
    handleOut s e k = .next (finished s e (packetDone (s.ep.get e) .rx (slot s e .rx k).bc .idle)) := by
  refine (if_pos hdone).trans ?_
  rw [fire_eq (by exact hok)]
  simp only [setPhase, setEp, EpBank.get_set_self, EpBank.set_set]
  rfl

/-- The OUT handler otherwise arms the next packet (R236, R232). -/
theorem handleOut_next {s : State} {e : EpId} {k : Bool}
    (hmore : ¬ ((s.ep.get e).remaining - (slot s e .rx k).bc.setWidth 16 = 0 ∨
      (slot s e .rx k).bc.toNat < mps s.cfg e)) :
    handleOut s e k = .next (packetArmed s e .rx (packetDone (s.ep.get e) .rx (slot s e .rx k).bc .dataOut)) := by
  refine (if_neg hmore).trans ?_
  cases e <;> rfl

section
variable {s : State} {e : EpId} {ep : BitVec 4} {k : Bool}

/-- An expected IN completion of another endpoint than EP0 runs the IN handler (R372). -/
theorem exec_tokInEpn (he : Other s.cfg e) (hn : ep.toNat = e.num) (hc : Completed s e .tx k pidIn)
    (hp : (s.ep.get e).phase = .dataIn ∨ (s.ep.get e).phase = .lastIn) :
    exec (.tokInEpn ep k) s = handleIn s e k :=
  (serveEpn_eq he hn .tx k pidIn _).trans (served hc (by simpa [phaseExpects, he.1] using hp) _)

/-- An expected OUT completion of another endpoint than EP0 runs the OUT handler (R372). -/
theorem exec_tokOutEpn (he : Other s.cfg e) (hn : ep.toNat = e.num) (hc : Completed s e .rx k pidOut)
    (hp : (s.ep.get e).phase = .dataOut) : exec (.tokOutEpn ep k) s = handleOut s e k :=
  (serveEpn_eq he hn .rx k pidOut _).trans (served hc (by simp [phaseExpects, he.1, hp, pidOut, pidIn]) _)

end

/-- Settles O26: the row runs the IN handler, which arms the next packet in DataIn and ends the transfer in LastIn. -/
theorem epnInAdvances : Obligations.EpnInAdvances := by
  intro s e ep k hok he hn hc
  refine ⟨fun hp => ?_, fun hp => ?_⟩
  · exact (exec_tokInEpn he hn hc (.inl hp)).trans (handleIn_dataIn s e k hp)
  · exact (exec_tokInEpn he hn hc (.inr hp)).trans (handleIn_end hok e k _ _ hp (.inl ⟨rfl, (if_neg he.1).symm⟩))

/-- Settles O27: the row runs the OUT handler, whose one test decides between the two ends. -/
theorem epnOutAdvances : Obligations.EpnOutAdvances := by
  intro s e ep k hok he hn hc hp
  exact ⟨fun hdone => (exec_tokOutEpn he hn hc hp).trans (handleOut_end hok hdone),
    fun hmore => (exec_tokOutEpn he hn hc hp).trans (handleOut_next hmore)⟩

end Sys2Proof.Machine
end

section
/-! PROOFS. The client's commands (42_transfer_engine.md): the four starts as one function of what their checks answer,
and the commands that halt, free or register on an endpoint (R233, R234, R240-R244). -/

namespace Sys2Proof.Machine

/-! ## Halting, freeing and registering -/

/-- stall, clearStall and setCallback are a fault F2 on no client endpoint (R240-R242). -/
theorem exec_onClientEp_none {s : State} {e : BitVec 8} (h : ∀ i, ¬ ClientEp s e i) (id : Nat) :
    exec (.stall e) s = .next (faulted s .f2) ∧ exec (.clearStall e) s = .next (faulted s .f2) ∧
      exec (.setCallback e id) s = .next (faulted s .f2) := by
  simp only [exec, execStall, execClearStall, execSetCallback, clientEp_none.2 h]
  exact ⟨rfl, rfl, rfl⟩

/-- On a client endpoint they halt it, free it, and register a callback (R240-R242). -/
theorem exec_onClientEp_some {s : State} {e : BitVec 8} {i : EpId} (h : ClientEp s e i) (id : Nat) :
    exec (.stall e) s = .next (stallEp s i) ∧ exec (.clearStall e) s = .next (clearStallEp s i) ∧
      exec (.setCallback e id) s = .next (setCb s i (some (.client id))) := by
  simp only [exec, execStall, execClearStall, execSetCallback, clientEp_some.2 h, and_self]

/-- Settles O35: each command acts on the endpoint `clientEp` finds, and halting is `haltReset` (R238, R239). -/
theorem stallAndCallbackCommands : Obligations.StallAndCallbackCommands := by
  intro s e id
  refine ⟨fun h => exec_onClientEp_none h id, fun i h => ?_⟩
  obtain ⟨hstall, hclear, hcb⟩ := exec_onClientEp_some h id
  have hhalt : stallEp s i = epHalted s i true .stall := (if_neg h.2.1.1).trans (haltReset_eq s i true .stall)
  have hfree : clearStallEp s i = epHalted s i false .idle := haltReset_eq s i false .idle
  exact ⟨hhalt ▸ hstall, hfree ▸ hclear, hcb⟩

/-! ## Starting a transfer -/

/-- What a start answers, by what its checks found: the fault is left in `lost`, the transfer in `begun`, and a buffer
outside R494 is refused. -/
def started (s : State) (d : Dir) (buf : Addr) (len : BitVec 16) (lost : FaultReason → State)
    (begun : EpId → State) : Except FaultReason EpId → Res
  | .error r => .next (lost r)
  | .ok i => if clientBufOk s d buf len then .next (begun i) else .refused .clientBuffer

/-- A start that leaves its fault, or the transfer begun: startTx and startRx (R233, R234). -/
def startCommand (s : State) (d : Dir) (buf : Addr) (len : BitVec 16) : Except FaultReason EpId → Res :=
  started s d buf len (faulted s) fun i => transferBegun s i d buf len

section
variable {s : State} {d : Dir} {buf : Addr} {len : BitVec 16} {lost : FaultReason → State} {begun : EpId → State}
  {e : BitVec 8} {i : EpId}

theorem started_admitted (h : BufAdmitted s d buf len) :
    started s d buf len lost begun (.ok i) = .next (begun i) := if_pos (clientBufOk_iff.2 h)

theorem started_refused (h : ¬ BufAdmitted s d buf len) :
    started s d buf len lost begun (.ok i) = .refused .clientBuffer := if_neg (mt clientBufOk_iff.1 h)

/-- Which fault it was can be read off the log (R443). -/
theorem faulted_inj {r f : FaultReason} (h : faulted s r = faulted s f) : r = f := by
  simpa [faulted] using congrArg State.out h

/-- A start that ends in a fault failed that fault's check. -/
theorem startCommand_faulted {x : Except FaultReason EpId} {f : FaultReason}
    (h : startCommand s d buf len x = .next (faulted s f)) : x = .error f := by
  cases x with
  | error r => exact congrArg _ (faulted_inj (Host.Outcome.next.inj h))
  | ok i =>
    simp only [startCommand, started] at h
    split at h
    · have hout : s.out = s.out ++ [_] := congrArg State.out (Host.Outcome.next.inj h)
      simp at hout
    · cases h

theorem execStartTx_eq (s : State) (e : BitVec 8) (len : BitVec 16) (buf : Addr) :
    execStartTx e len buf s = startCommand s .tx buf len (startCheck s e .tx len buf) := by
  unfold execStartTx
  simp only [beginTx_eq]
  rfl

theorem execStartRx_eq (s : State) (e : BitVec 8) (len : BitVec 16) (buf : Addr) :
    execStartRx e len buf s = startCommand s .rx buf len (startCheck s e .rx len buf) := by
  unfold execStartRx
  simp only [beginRx_eq]
  rfl

/-- The checks of a start all pass (R233). -/
theorem startCheck_passes (h : ClientEp s e i) (hd : dirOf s.cfg i = d) (hp : (s.ep.get i).phase = .idle)
    (hlen : buf = 0 → len.toNat ≤ mps s.cfg i) : startCheck s e d len buf = .ok i := by
  rw [startCheck_some h, if_neg (not_not.2 hd), if_neg (not_not.2 hp), if_neg]
  exact fun hx => Nat.not_lt.2 (hlen hx.1) hx.2

end

/-- Settles O34: both commands are `startCommand`, and the checks answer in their order. -/
theorem startChecksAndArms : Obligations.StartChecksAndArms := by
  intro s e len buf d r
  have hr : r = startCommand s d buf len (startCheck s e d len buf) := by
    cases d with
    | tx => exact execStartTx_eq s e len buf
    | rx => exact execStartRx_eq s e len buf
  rw [hr]
  refine ⟨fun h => by rw [startCheck_none h]; rfl, fun i h => ⟨fun hd => ?_, fun hd hp => ?_, fun hd hp hb hl => ?_,
    fun hd hp hl hbuf => ?_, fun hd hp hbuf => ?_⟩⟩
  · rw [startCheck_some h, if_pos hd]; rfl
  · rw [startCheck_some h, if_neg (not_not.2 hd), if_pos hp]; rfl
  · rw [startCheck_some h, if_neg (not_not.2 hd), if_neg (not_not.2 hp), if_pos ⟨hb, hl⟩]; rfl
  · rw [startCheck_passes h hd hp hl]; exact started_admitted hbuf
  · rw [startCheck_passes h hd hp fun hb => absurd (.inl hb) hbuf]; exact started_refused hbuf

/-! ## The blocking calls -/

theorem execSendData_eq (s : State) (buf : Addr) (len : BitVec 16) :
    execSendData buf len s = started s .tx buf len (faulted s)
      (fun i => { transferBegun s i .tx buf len with client := { s.client with sendWait := true } })
      (roleCheck s (epBulkIn s.cfg) .tx len buf) := by
  unfold execSendData
  simp only [beginTx_eq]
  rfl

theorem execReceiveData_eq (s : State) (buf : Addr) (len : BitVec 16) :
    execReceiveData buf len s = started s .rx buf len
      (fun r => { faulted s r with client := { s.client with recvRet := 0 } })
      (fun i => { transferBegun s i .rx buf len with client := { s.client with recvWait := true } })
      (roleCheck s (epBulkOut s.cfg) .rx len buf) := by
  unfold execReceiveData
  simp only [beginRx_eq]
  rfl

section
variable {s : State} {t : EpType} {d : Dir} {v : BitVec 8} {e : EpId}

/-- With no endpoint of the role a start is a fault F2 (R443; log 36). -/
theorem roleCheck_none (h : ∀ e, ¬ HasRole s.cfg t d v e) (len : BitVec 16) (buf : Addr) :
    roleCheck s (epOfRole s.cfg t d v) d len buf = .error .f2 := by
  rw [epOfRole_none.2 h]; rfl

/-- A start on a role checks the endpoint that has it (R244; log 36). -/
theorem roleCheck_some (h : HasRole s.cfg t d v e) (len : BitVec 16) (buf : Addr) :
    roleCheck s (epOfRole s.cfg t d v) d len buf = startCheck s (BitVec.ofNat 8 e.num) d len buf := by
  rw [epOfRole_some.2 h]; rfl

/-- The endpoint of a role has the role's direction (R7). -/
theorem dirOf_of_hasRole {c : Params} (h : HasRole c t d v e) : dirOf c e = d := by
  obtain ⟨-, ⟨m, hm⟩, -⟩ := h
  rw [dirOf, entryOf, hm]

/-- An enabled endpoint of a role is a client endpoint under its own number. -/
theorem clientEp_of_hasRole (h : HasRole s.cfg t d v e) (hen : (s.ep.get e).enabled = true) :
    ClientEp s (BitVec.ofNat 8 e.num) e :=
  ⟨by have := e.num_lt; simp only [BitVec.toNat_ofNat]; omega, h.1, hen⟩

/-- On an enabled, idle endpoint of a role the checks of a start pass. -/
theorem roleCheck_passes {len : BitVec 16} {buf : Addr} (h : HasRole s.cfg t d v e)
    (hen : (s.ep.get e).enabled = true) (hp : (s.ep.get e).phase = .idle)
    (hlen : buf = 0 → len.toNat ≤ mps s.cfg e) :
    roleCheck s (epOfRole s.cfg t d v) d len buf = .ok e :=
  (roleCheck_some h len buf).trans
    (startCheck_passes (clientEp_of_hasRole h hen) (dirOf_of_hasRole h) hp hlen)

end

/-- In the default map the vendor interface's bulk endpoints are EP2 (IN) and EP1 (OUT) (R7). -/
theorem bulk_defaultMap {c : Params} (hm : c.epMap = defaultMap) (hv : c.ifVendor = 0) (hn : 2 < c.numEp) :
    HasRole c .bulk .tx c.ifVendor .ep2 ∧ HasRole c .bulk .rx c.ifVendor .ep1 := by
  rw [hv]
  refine ⟨⟨⟨by decide, hn⟩, ⟨.bulkMps, by rw [hm]; rfl⟩, ?_⟩, ⟨by decide, Nat.lt_of_succ_lt hn⟩,
    ⟨.bulkMps, by rw [hm]; rfl⟩, ?_⟩
  · rintro n h1 h2 ⟨m, hx⟩
    obtain rfl : n = 1 := Nat.le_antisymm (Nat.le_of_lt_succ h2) h1
    rw [hm] at hx
    cases hx
  · exact fun n h1 h2 => absurd h1 (Nat.not_le.2 h2)

/-- Settles O37: both calls are a start on the endpoint of their role, with the wait set where it succeeds. -/
theorem blockingCallsStartAndWait : Obligations.BlockingCallsStartAndWait := by
  intro s buf len
  have hsend : exec (.sendData buf len) s = _ := execSendData_eq s buf len
  have hrecv : exec (.receiveData buf len) s = _ := execReceiveData_eq s buf len
  simp only [hsend, hrecv, epBulkIn, epBulkOut]
  refine ⟨bulk_defaultMap, fun h => ?_, fun h => ?_, fun e f h hx => ?_, fun e f h hx => ?_,
    fun e h hen hp hl hbuf => ?_, fun e h hen hp hl hbuf => ?_, ?_⟩
  · rw [roleCheck_none h]; rfl
  · rw [roleCheck_none h]; rfl
  · rw [roleCheck_some h, startCommand_faulted ((execStartTx_eq s _ len buf).symm.trans hx)]; rfl
  · rw [roleCheck_some h, startCommand_faulted ((execStartRx_eq s _ len buf).symm.trans hx)]; rfl
  · rw [roleCheck_passes h hen hp hl]; exact started_admitted hbuf
  · rw [roleCheck_passes h hen hp hl]; exact started_admitted hbuf
  · rfl

end Sys2Proof.Machine
end

section
/-! PROOFS. The client's waits (R244, R452, R497): while a call waits only the wake-up at the end of a step writes the
client's waits and return values, because the block, the SIE and the backend never do and the client's own lines are
held, clearStall apart. -/

namespace Sys2Proof.Machine

/-! ## Results that keep the client's record -/

/-- Wherever the result goes on, the client's waits and return values are `c`. -/
def KeepsClient {α : Type} (f : α → State) (c : Client) (r : Host.Outcome α Fault Refusal) : Prop :=
  ∀ x, r = .next x → (f x).client = c

section
variable {α β : Type} {f : α → State} {g : β → State} {c : Client} {r : Host.Outcome α Fault Refusal}

theorem keepsClient_next {x : α} (h : (f x).client = c) : KeepsClient f c (.next x) := by rintro _ ⟨⟩; exact h

theorem keepsClient_refused (x : Refusal) : KeepsClient f c (.refused x) := by rintro _ ⟨⟩

theorem KeepsClient.ite {p : Prop} [Decidable p] {a b : Host.Outcome α Fault Refusal} (ha : KeepsClient f c a)
    (hb : KeepsClient f c b) : KeepsClient f c (if p then a else b) := by
  split
  · exact ha
  · exact hb

/-- A sequence keeps the record where its second part does so from what the first one leaves. -/
theorem KeepsClient.andThen {k : α → Host.Outcome β Fault Refusal} (hr : KeepsClient f c r)
    (hk : ∀ x, (f x).client = c → KeepsClient g c (k x)) : KeepsClient g c (andThen r k) := by
  intro y hy
  obtain ⟨x, hx, hy⟩ := andThen_next.1 hy
  exact hk x (hr x hx) y hy

/-- A load, then a part that keeps the record whatever was read. -/
theorem keepsClient_load {s : State} {a : Addr} {n : Nat} {k : List Byte → Host.Outcome β Fault Refusal}
    (hk : ∀ b, KeepsClient g c (k b)) : KeepsClient g c (andThen (load s a n) k) := by
  intro y hy
  obtain ⟨b, -, hy⟩ := andThen_next.1 hy
  exact hk b y hy

theorem keepsClient_store (s : State) (a : Addr) (bs : List Byte) : KeepsClient id s.client (store s a bs) := by
  intro t h
  rw [(store_next h).1]
  rfl

end

/-! ## Requests -/

section
variable {s : State} {c : Client} {r : ReqRes}

/-- The stage an outcome arms is EP0's (R274-R277). -/
theorem Stage.client {cb : Option Callback} {t : State} (h : Stage s cb t) : t.client = s.client := by cases h <;> rfl

theorem KeepsClient.finish {bm : Byte} {l : BitVec 16} (h : KeepsClient Prod.snd c r) :
    KeepsClient id c (finishRequest bm l r) := by
  intro t ht
  obtain ⟨⟨o, v⟩, rfl, -⟩ := andThen_next.1 ht
  obtain ⟨w, hw, rfl⟩ := finish_stage ht
  exact hw.client.trans (h _ rfl)

theorem keepsClient_fail (x : StallCause) : KeepsClient Prod.snd s.client (fail s x) := keepsClient_next rfl

/-- A check that fails with a cause, in front of the rest of a request. -/
theorem KeepsClient.check {p : Prop} [Decidable p] {x : StallCause} (h : KeepsClient Prod.snd s.client r) :
    KeepsClient Prod.snd s.client (if p then fail s x else r) := .ite (keepsClient_fail x) h

/-- The checks of the CDC hook, in front of the rest of a request (R411). -/
theorem KeepsClient.cdc {lenOk : Bool} {x : BitVec 16} (h : KeepsClient Prod.snd s.client r) :
    KeepsClient Prod.snd s.client (match cdcCheck s lenOk x with
      | some c => fail s c
      | none => r) := by
  cases cdcCheck s lenOk x with
  | some c => exact keepsClient_fail c
  | none => exact h

/-- A reply whose bytes are stored first. -/
theorem keepsClient_stored (a : Addr) (b : List Byte) (o : ReqOutcome) :
    KeepsClient Prod.snd s.client (andThen (store s a b) fun s' => .next (o, s')) :=
  (keepsClient_store s a b).andThen fun _ hv => keepsClient_next hv

theorem keepsClient_replyDescriptor (x : Option ReplySource) :
    KeepsClient Prod.snd s.client (replyDescriptor s x) := by
  cases x with
  | none => exact keepsClient_fail _
  | some x =>
    cases x with
    | rom => exact keepsClient_next rfl
    | bytes => exact keepsClient_stored _ _ _

theorem keepsClient_deviceFeature (x : BitVec 16) (v : Bool) :
    KeepsClient Prod.snd s.client (deviceFeature s x v) :=
  .ite (.ite (keepsClient_next rfl) (keepsClient_fail _)) (.check (keepsClient_fail _))

/-- SET_CONFIGURATION rebuilds endpoints and writes device registers (R329, R330). -/
theorem configure_client (v : BitVec 16) : (configure s v).client = s.client := by
  have hb : (nonControl s.cfg).foldl build s = allRebuilt s true := foldl_rebuild_eq s true
  have ht : (nonControl s.cfg).foldl teardown s = allRebuilt s false := foldl_rebuild_eq s false
  unfold configure
  rw [hb, ht]
  split
  · rfl
  · split <;> rfl

theorem keepsClient_stagingWrites (s : State) (ws : List (Fin 7 × Byte)) :
    KeepsClient id s.client (stagingWrites s ws) := by
  induction ws generalizing s with
  | nil => exact keepsClient_next rfl
  | cons w ws ih => exact (keepsClient_store s _ _).andThen fun v hv => hv ▸ ih v

theorem backendCalls_client (s : State) (l : List BackendCall) : (l.foldl backendCall s).client = s.client := by
  induction l generalizing s with
  | nil => rfl
  | cons b l ih => exact (ih _).trans (backendCall_client s b)

theorem keepsClient_runHookReply (bm : Byte) (x : HookReply) :
    KeepsClient Prod.snd s.client (runHookReply s bm x) :=
  .check ((keepsClient_stagingWrites s x.staging).andThen fun v hv =>
    keepsClient_next ((backendCalls_client v x.calls).trans hv))

/-- Every SETUP row (R273). -/
theorem keepsClient_execRequest (i : Instr) : KeepsClient id s.client (execRequest i s) := by
  have staged : ∀ b, KeepsClient Prod.snd s.client (replyStaged s b) := fun b => keepsClient_stored _ b _
  cases i with
  | getStatusDevice | getConfiguration => exact .finish (.check (.check (staged _)))
  | getStatusInterface | getInterface => exact .finish (.check (.check (.check (staged _))))
  | getStatusEndpoint v x l =>
    refine .finish (.check (.check ?_))
    cases epCheck s x with
    | none => exact keepsClient_fail _
    | some e => exact staged _
  | clearFeatureDevice | setFeatureDevice => exact .finish (.check (.check (keepsClient_deviceFeature _ _)))
  | clearFeatureInterface | setFeatureInterface => exact .finish (.check (.check (.check (keepsClient_fail _))))
  | clearFeatureEndpoint v x l | setFeatureEndpoint v x l =>
    refine .finish (.check (.check ?_))
    cases epCheck s x with
    | none => exact keepsClient_fail _
    | some e => exact .check (keepsClient_next (by dsimp only; split <;> simp))
  | setAddress => exact .finish (.check (.check (.check (keepsClient_next rfl))))
  | getDescriptorDevice | getDescriptorConfiguration | getDescriptorString =>
    exact .finish (.check (keepsClient_replyDescriptor _))
  | getDescriptorOther => exact .finish (.check (keepsClient_fail _))
  | setConfiguration => exact .finish (.check (.check (.check (keepsClient_next (configure_client _)))))
  | setInterface => exact .finish (.check (.check (.check (.check (keepsClient_next rfl)))))
  | setDescriptor | synchFrame | stdUnmatched | classUnmatched | reservedType =>
    exact .finish (keepsClient_fail _)
  | cdcSetLineCoding | cdcSetControlLineState | cdcSendBreak => exact .finish (.cdc (keepsClient_next rfl))
  | cdcGetLineCoding => exact .finish (.cdc (keepsClient_stored (s := backendCall s .getLineCoding) _ _ _))
  | vendorRequest =>
    refine .finish (.check ?_)
    cases s.cfg.vendorHook with
    | none => exact keepsClient_fail _
    | some rows => exact keepsClient_runHookReply _ _
  | tokSetupEp0 | tokOutEp0 | tokInEp0 | tokOutEpn | tokInEpn | tokSetupEpn | evUsbrst | evError | evSoftok | evTokdne
    | evSleep | evResume | evStall | startTx | startRx | stall | clearStall | setCallback | notify | sendData
    | receiveData | isConfigured => exact keepsClient_refused _

/-! ## Completions -/

/-- A callback writes device registers, the backend or the output (R237, R322, R413). -/
theorem keepsClient_fireCallback (s : State) (e : EpId) : KeepsClient id s.client (fireCallback s e) := by
  unfold fireCallback
  simp only []
  cases (s.ep.get e).callback with
  | none => exact keepsClient_next rfl
  | some x =>
    cases x with
    | commitAddress | client | vendor => exact keepsClient_next rfl
    | applyLineCoding => exact .ite (keepsClient_load fun _ => keepsClient_next rfl) (keepsClient_next rfl)

theorem keepsClient_handleIn (e : EpId) (k : Bool) : KeepsClient id s.client (handleIn s e k) := by
  unfold handleIn
  simp only [advance, flipDir]
  cases (s.ep.get e).phase with
  | lastIn | statusIn => exact keepsClient_fireCallback _ e
  | dataIn | idle | dataOut | statusOut | throttle | stall | complete => exact keepsClient_next (by simp)

theorem keepsClient_handleOut (e : EpId) (k : Bool) : KeepsClient id s.client (handleOut s e k) :=
  .ite (keepsClient_fireCallback _ e) (keepsClient_next (by simp))

theorem keepsClient_outInDataOut (s : State) (k : Bool) (n : BitVec 10) :
    KeepsClient id s.client (outInDataOut s k n) := by
  refine .ite (keepsClient_next (by simp)) (keepsClient_load fun b => (keepsClient_store s _ b).andThen fun v hv => ?_)
  rw [← show v.client = s.client from hv]
  exact .ite (keepsClient_fireCallback _ .ep0) (keepsClient_next (by simp))

theorem keepsClient_handleEp0Out (k : Bool) : KeepsClient id s.client (handleEp0Out s k) := by
  unfold handleEp0Out
  cases s.ep.ep0.phase with
  | dataOut => exact keepsClient_outInDataOut _ k _
  | statusOut => exact keepsClient_next (by unfold outInStatusOut; split <;> simp)
  | dataIn | lastIn => exact keepsClient_next (by unfold outInDataIn; split <;> simp)
  | idle | statusIn | stall => exact keepsClient_next (by simp)
  | throttle | complete => exact keepsClient_refused _

@[simp] theorem setupResynced_client (p : Setup) : (setupResynced s p).client = s.client := rfl

theorem keepsClient_handleSetup (k : Bool) : KeepsClient id s.client (handleSetup s k) :=
  keepsClient_load fun b => by
    unfold setupRest
    simp only [resyncEp0_eq]
    exact .ite (keepsClient_next (by simp)) (keepsClient_execRequest _)

theorem KeepsClient.serve {r : Res} (h : KeepsClient id s.client r) (e : EpId) (d : Dir) (k : Bool)
    (pid : BitVec 4) : KeepsClient id s.client (serve s e d k pid r) := .ite h (keepsClient_next rfl)

/-- EV_TOKDNE serves one completion, or drops it (R372). -/
theorem keepsClient_execEvTokdne (s : State) : KeepsClient id s.client (execEvTokdne s) := by
  cases ht : takeCompletion s.sie.tokq with
  | none => simp only [execEvTokdne, ht]; exact keepsClient_next rfl
  | some p =>
    obtain ⟨c, q⟩ := p
    have dropped : KeepsClient id (popped s q).client (.next (raiseFault (popped s q) .f4)) := keepsClient_next rfl
    cases he : endpointOf s.cfg c.ep.toNat with
    | none =>
      have hn : completionRow (popped s q) c = none := by unfold completionRow; rw [popped_cfg, he]
      simp only [execEvTokdne, ht, show setSie s { s.sie with tokq := q } = popped s q from rfl, hn]
      exact dropped
    | some e =>
      rw [execEvTokdne_some ht he]
      exact .ite (.ite ((keepsClient_handleSetup _).serve _ _ _ _) dropped)
        (.ite (.serve (.ite (keepsClient_handleEp0Out _) (keepsClient_handleOut e _)) _ _ _ _)
          (.ite ((keepsClient_handleIn e _).serve _ _ _ _) dropped))

/-! ## The other agents' lines -/

theorem keepsClient_execEvSoftok (s : State) : KeepsClient id s.client (execEvSoftok s) := by
  unfold execEvSoftok
  simp only [foldl_emit]
  cases (emit (setDev s (clearBits bitSoftok s.dev)) (.sof s.dev.frame)).hooks.sof <;> exact keepsClient_next rfl

/-- A dispatcher step (R370, R371). -/
theorem keepsClient_runDispatch (s : State) (g : Bool) : KeepsClient id s.client (runDispatch g s) := by
  unfold runDispatch
  cases hd : decodeEvent (pending s) g with
  | none => exact keepsClient_next rfl
  | some i =>
    unfold decodeEvent at hd
    repeat' split at hd
    all_goals cases hd
    · exact keepsClient_next rfl
    · exact keepsClient_execEvTokdne s
    · exact .ite (.ite (keepsClient_next rfl) (keepsClient_next rfl)) (keepsClient_next rfl)
    · exact keepsClient_next rfl
    · exact keepsClient_execEvSoftok s
    · exact .ite (keepsClient_next rfl) (keepsClient_next rfl)
    · exact keepsClient_next rfl

theorem keepsClient_execStartTx (e : BitVec 8) (len : BitVec 16) (buf : Addr) :
    KeepsClient id s.client (execStartTx e len buf s) := by
  unfold execStartTx
  cases startCheck s e .tx len buf with
  | error => exact keepsClient_next rfl
  | ok => exact .ite (keepsClient_next rfl) (keepsClient_refused _)

/-- The backend's notify starts a transfer that no call waits for (R418, R419). -/
theorem keepsClient_execNotify (s : State) (v : BitVec 16) : KeepsClient id s.client (execNotify v s) := by
  unfold execNotify
  cases epNotify s.cfg with
  | none => exact keepsClient_next rfl
  | some e =>
    exact .ite (keepsClient_next rfl) (.ite (keepsClient_next rfl)
      ((keepsClient_store s _ _).andThen fun _ hv => hv ▸ keepsClient_execStartTx _ _ _))

theorem keepsClient_execClearStall (e : BitVec 8) : KeepsClient id s.client (execClearStall e s) := by
  unfold execClearStall
  cases clientEp s e <;> exact keepsClient_next rfl

theorem keepsClient_overrun (x : Slot) : KeepsClient id s.client (overrun s x) :=
  (keepsClient_store s _ _).andThen fun _ hv => keepsClient_next hv

theorem keepsClient_hostSetup (a : BitVec 7) (e : BitVec 4) (data : List Byte) :
    KeepsClient id s.client (hostSetup a e data s) :=
  .ite (keepsClient_next rfl) (.ite (keepsClient_next rfl) (.ite (keepsClient_next rfl)
    (.ite (keepsClient_overrun _) ((keepsClient_store s _ data).andThen fun _ hv => keepsClient_next hv))))

theorem keepsClient_hostOut (a : BitVec 7) (e : BitVec 4) (p : Bool) (data : List Byte) :
    KeepsClient id s.client (hostOut a e p data s) := by
  unfold hostOut
  cases tokenTo s a e with
  | none => exact keepsClient_next rfl
  | some i =>
    exact .ite (.ite (keepsClient_next rfl) (.ite (keepsClient_next rfl) (.ite (keepsClient_overrun _)
      (.ite (keepsClient_next rfl) ((keepsClient_store s _ data).andThen fun _ hv => keepsClient_next hv)))))
      (keepsClient_next rfl)

theorem keepsClient_hostIn (a : BitVec 7) (e : BitVec 4) (ack : Bool) :
    KeepsClient id s.client (hostIn a e ack s) := by
  unfold hostIn
  cases tokenTo s a e with
  | none => exact keepsClient_next rfl
  | some i =>
    exact .ite (.ite (keepsClient_next rfl) (.ite (keepsClient_next rfl)
      (keepsClient_load fun _ => keepsClient_next (by split <;> rfl)))) (keepsClient_next rfl)

/-- A command that may run while a call waits is a clearStall (R497). -/
theorem runClient_of_not_held {word : List Byte} {u : State} (hw : Waits s) (hh : ¬ Held s (.client word)) :
    ∃ e, runClient word u = execClearStall e u := by
  by_contra hc
  refine hh ⟨hw, .inr ⟨word, rfl, fun e he => hc ⟨e, ?_⟩⟩⟩
  rw [runClient_ok he]
  rfl

/-- A line that is not held while a call waits, INIT apart, keeps the client's record (R244, R497). -/
theorem keepsClient_runLine {u : State} {l : Line} (hw : Waits s) (hh : ¬ Held s l) (hl : l ≠ .init) :
    KeepsClient id u.client (runLine l u) := by
  cases l with
  | init => exact absurd rfl hl
  | hReset | hSof | hIdle | hResume => exact keepsClient_next rfl
  | hSetup a e data => exact keepsClient_hostSetup a e data
  | hOut a e p data => exact keepsClient_hostOut a e p data
  | hIn a e ack => exact keepsClient_hostIn a e ack
  | hError x => exact .ite (keepsClient_refused _) (keepsClient_next rfl)
  | dispatch g => exact keepsClient_runDispatch u g
  | client word =>
    obtain ⟨e, he⟩ := runClient_of_not_held (u := u) hw hh
    rw [runLine, he]
    exact keepsClient_execClearStall e
  | backend v => exact keepsClient_execNotify { u with backend := { u.backend with lineState := v } } v
  | memWrite a data => exact keepsClient_store u a data

/-! ## The step -/

/-- The line a step takes is not held (R135). -/
theorem takeLine_not_held {ls rest : List Line} {l : Line} (h : takeLine s ls = some (l, rest)) : ¬ Held s l := by
  induction ls generalizing rest with
  | nil => cases h
  | cons x ls ih =>
    unfold takeLine at h
    split at h
    · obtain ⟨⟨l', rest'⟩, ht, he⟩ := Option.map_eq_some_iff.1 h
      cases he
      exact ih ht
    · next hx => cases h; exact mt lineHeld_iff.2 hx

/-- While a call waits, the agents' steps, INIT apart, keep the client's record (R244). -/
theorem keepsClient_runNext (hw : Waits s) (hi : nextLine s ≠ some .init) : KeepsClient id s.client (runNext s) := by
  unfold runNext
  cases hl : takeLine s s.lines with
  | none => exact .ite (keepsClient_runDispatch { s with draws := s.draws + 1 } _) (keepsClient_next rfl)
  | some p =>
    obtain ⟨l, rest⟩ := p
    have hne : l ≠ .init := by simpa [nextLine, hl] using hi
    exact keepsClient_runLine (u := { s with lines := rest }) hw (takeLine_not_held hl) hne

end

/-- A step is an agent's, with the waiting calls checked again after it (R244, R452). -/
theorem step_wakes {s t : State} (h : step s = .next t) : ∃ u, runNext s = .next u ∧ t = wakeClient u := by
  unfold step runStep at h
  split at h
  · obtain ⟨u, hu, h⟩ := andThen_next.1 h
    exact ⟨u, hu, (Host.Outcome.next.inj h).symm⟩
  · cases h

/-! ## The wake-up -/

section
variable (s : State)

/-- A wait that is not over goes on. -/
theorem stillWaits {w o : Bool} (h : ¬ (w && o) = true) : (w && !o) = w := by
  cases w with
  | false => rfl
  | true => simpa using h

/-- The record after sendData's wake-up (R244). -/
theorem wakeSend_client : (wakeSend s).client =
    { s.client with sendWait := s.client.sendWait && !waitOver s (epBulkIn s.cfg) } := by
  unfold wakeSend
  split
  · next h => simp [(Bool.and_eq_true_iff.1 h).2]
  · next h => rw [stillWaits h]

/-- The record after receiveData's wake-up, which returns `xferred` (R244). -/
theorem wakeRecv_client : (wakeRecv s).client = { s.client with
    recvWait := s.client.recvWait && !waitOver s (epBulkOut s.cfg)
    recvRet := if s.client.recvWait && waitOver s (epBulkOut s.cfg) then
      ((epBulkOut s.cfg).map fun i => (s.ep.get i).xferred).getD 0 else s.client.recvRet } := by
  unfold wakeRecv
  split
  · next h => simp [(Bool.and_eq_true_iff.1 h).2]
  · next h => rw [stillWaits h]

/-- The wake-up ends each wait with its endpoint (R244). -/
theorem wakeClient_client : (wakeClient s).client = { s.client with
    sendWait := s.client.sendWait && !waitOver s (epBulkIn s.cfg)
    recvWait := s.client.recvWait && !waitOver s (epBulkOut s.cfg)
    recvRet := if s.client.recvWait && waitOver s (epBulkOut s.cfg) then
      ((epBulkOut s.cfg).map fun i => (s.ep.get i).xferred).getD 0 else s.client.recvRet } := by
  have hover : ∀ e, waitOver (wakeSend s) e = waitOver s e := fun e => by simp only [waitOver, wakeSend_ep]
  simp only [wakeClient, wakeRecv_client, wakeSend_client, hover, wakeSend_cfg, wakeSend_ep]

variable {s}

/-- A wait on the endpoint of a role goes on while one has the role and is enabled and not Idle (R244). -/
theorem not_waitOver_iff {c : Params} {d : Dir} {v : BitVec 8} :
    (!waitOver s (epOfRole c .bulk d v)) = true ↔
      ∃ e, HasRole c .bulk d v e ∧ (s.ep.get e).enabled = true ∧ (s.ep.get e).phase ≠ .idle := by
  cases hr : epOfRole c .bulk d v with
  | none =>
    have hnone := epOfRole_none.1 hr
    exact ⟨fun h => absurd h (by simp [waitOver]), fun ⟨e, he, _⟩ => absurd he (hnone e)⟩
  | some i =>
    have huniq : ∀ e, HasRole c .bulk d v e ↔ i = e := fun e => by rw [← epOfRole_some, hr, Option.some.injEq]
    simp only [huniq, exists_eq_left']
    simp [waitOver]

end

/-- Settles O38: the agents' steps keep the client's record while a call waits, so the wake-up alone decides. -/
theorem waitsEndWithTheirEndpoint : Obligations.WaitsEndWithTheirEndpoint := by
  intro s t h on
  have hcfg := (step_cfg_memWf h).1
  obtain ⟨u, hu, rfl⟩ := step_wakes h
  rw [wakeClient_cfg] at hcfg
  have busy : ∀ d, (∃ e, on d e) ↔ (!waitOver u (epOfRole u.cfg .bulk d u.cfg.ifVendor)) = true := fun d => by
    rw [not_waitOver_iff, hcfg]
    simp only [on, wakeClient_ep]
  have kept : Waits s → nextLine s ≠ some .init → u.client = s.client :=
    fun hw hi => keepsClient_runNext hw hi u hu
  have hclient := wakeClient_client u
  simp only [busy, hclient, wakeClient_ep, Bool.and_eq_true]
  refine ⟨And.right, And.right, fun hi => ⟨fun hw hb => ?_, fun hw hb => ?_, fun e he hw ht => ?_, fun hw => ?_⟩⟩
  · exact ⟨kept (.inl hw) hi ▸ hw, hb⟩
  · exact ⟨kept (.inr hw) hi ▸ hw, hb⟩
  · have hrole : epBulkOut u.cfg = some e := by rw [hcfg]; exact epOfRole_some.2 he
    simp only [kept (.inr hw) hi, hw, hrole, Bool.true_and, Bool.not_eq_false'] at ht ⊢
    rw [if_pos ⟨trivial, ht⟩]
    rfl
  · rw [kept hw hi]
    refine ⟨rfl, fun hsame => if_neg ?_⟩
    rintro ⟨hrecv, hover⟩
    rw [hrecv, hover] at hsame
    cases hsame

end Sys2Proof.Machine
end

section
/-! PROOFS. EP0's OUT and IN completions (43_control_fsm.md): the OUT handler phase by phase as the records of
Safety.lean, and the two completion rows (R278-R284). -/

namespace Sys2Proof.Machine

section
variable {s : State} {k : Bool}

/-- An expected OUT completion of EP0 runs its OUT handler: every phase but Stall expects one (R278, R372). -/
theorem exec_tokOutEp0 (hc : Completed s .ep0 .rx k pidOut) (hp : s.ep.ep0.phase ≠ .stall) :
    exec (.tokOutEp0 k) s = handleEp0Out s k :=
  served hc (by simpa [phaseExpects, pidOut, pidSetup, EpBank.get] using hp) _

/-- An expected IN completion of EP0 runs the IN handler (R283, R284, R372). -/
theorem exec_tokInEp0 (hc : Completed s .ep0 .tx k pidIn)
    (hp : s.ep.ep0.phase = .dataIn ∨ s.ep.ep0.phase = .lastIn ∨ s.ep.ep0.phase = .statusIn) :
    exec (.tokInEp0 k) s = handleIn s .ep0 k :=
  served hc (by simpa [phaseExpects, pidIn, pidOut, pidSetup, or_assoc, EpBank.get] using hp) _

/-! ## The OUT handler outside the data stage -/

theorem handleEp0Out_statusOut (hp : s.ep.ep0.phase = .statusOut) :
    handleEp0Out s k = .next (outInStatusOut (ep0OutFlipped s) (slot s .ep0 .rx k).bc) := by
  unfold handleEp0Out
  rw [hp]
  rfl

theorem handleEp0Out_dataIn (hp : s.ep.ep0.phase = .dataIn ∨ s.ep.ep0.phase = .lastIn) :
    handleEp0Out s k = .next (outInDataIn (ep0OutFlipped s) (slot s .ep0 .rx k).bc) := by
  unfold handleEp0Out
  rcases hp with hp | hp <;> rw [hp] <;> rfl

/-- In Idle and StatusIn no OUT is due (R282). -/
theorem handleEp0Out_notDue (hp : s.ep.ep0.phase = .idle ∨ s.ep.ep0.phase = .statusIn) :
    handleEp0Out s k = .next (ep0Stalled (ep0OutFlipped s) .s8) := by
  rw [← raiseStall_eq]
  unfold handleEp0Out
  rcases hp with hp | hp <;> rw [hp] <;> rfl

theorem handleEp0Out_dataOut (hp : s.ep.ep0.phase = .dataOut) :
    handleEp0Out s k = outInDataOut (ep0OutFlipped s) k (slot s .ep0 .rx k).bc := by
  unfold handleEp0Out
  rw [hp]
  rfl

/-- The due ZLP ends the status stage, and data stalls (R280). -/
theorem outInStatusOut_eq (n : BitVec 10) :
    outInStatusOut s n = if n = 0 then ep0RxArmed s { s.ep.ep0 with phase := .idle } else ep0Stalled s .s8 := by
  rw [← raiseStall_eq]
  rfl

/-- A ZLP in the IN data stage ends it early, and data stalls (R281). -/
theorem outInDataIn_eq (n : BitVec 10) :
    outInDataIn s n = if n = 0 then ep0EarlyStatus s else ep0Stalled s .s8 := by
  rw [← raiseStall_eq]
  rfl

/-! ## The OUT data stage -/

/-- A packet of `n` bytes uses up exactly the bytes left (R279). -/
theorem left_eq_zero_iff (r : BitVec 16) (n : BitVec 10) : r - n.setWidth 16 = 0 ↔ r.toNat = n.toNat := by
  bv_omega

theorem outInDataOut_tooLong {n : BitVec 10} (h : s.ep.ep0.remaining.toNat < n.toNat) :
    outInDataOut s k n = .next (ep0Stalled s .s9) := by
  rw [← raiseStall_eq]
  exact if_pos h

/-- EP0 after the last packet of its OUT data stage, before the callback runs: the status stage armed (R279). -/
def outStageEnded (n : BitVec 10) (s : State) : State :=
  ep0Armed s { advance s.ep.ep0 n with phase := .statusIn, callback := none }
    (bufAddr s.cfg .ep0 .tx s.ep.ep0.odd.tx) 0

/-- EP0 after another packet of its OUT data stage: the next one armed (R279). -/
def outStageNext (n : BitVec 10) (s : State) : State := ep0RxArmed s (advance s.ep.ep0 n)

/-- A packet that fits is copied to the cursor, and then ends the stage or has the next one armed (R279). -/
theorem outInDataOut_fits (hok : buildOk s.cfg = true) {n : BitVec 10} (hleft : n.toNat ≤ s.ep.ep0.remaining.toNat)
    (hmps : n.toNat ≤ s.cfg.ep0Mps) (hw : Writable s.cfg s.ep.ep0.ptr.toNat n.toNat) :
    ∃ v, store s s.ep.ep0.ptr (peeks s (bufAddr s.cfg .ep0 .rx k).toNat n.toNat) = .next v ∧
      outInDataOut s k n =
        if s.ep.ep0.remaining.toNat = n.toNat ∨ n.toNat < s.cfg.ep0Mps then
          .next (callbackRan (outStageEnded n v) .ep0 s.ep.ep0.callback)
        else .next (outStageNext n v) := by
  have hst : store s s.ep.ep0.ptr (peeks s (bufAddr s.cfg .ep0 .rx k).toNat n.toNat) = _ :=
    store_ok (by rw [peeks_length]; exact hw.1) (by rw [peeks_length]; exact hw.2)
  refine ⟨_, hst, ?_⟩
  unfold outInDataOut
  rw [if_neg (Nat.not_lt.2 hleft), load_buf hok (ep0_lt hok) .rx k hmps]
  simp only [andThen, hst]
  have hdone : (advance s.ep.ep0 n).remaining = 0 ↔ s.ep.ep0.remaining.toNat = n.toNat := left_eq_zero_iff _ n
  simp only [setEp_ep, setEp_cfg, EpBank.set, hdone]
  rw [fire_eq (by exact hok)]
  rfl

end

/-! ## Copied bytes -/

/-- Bytes are read from memory alone. -/
theorem peeks_congr {s t : State} (hc : t.cfg = s.cfg) (hm : t.mem = s.mem) (a n : Nat) :
    peeks t a n = peeks s a n := by
  induction n generalizing a with
  | zero => rfl
  | succ n ih => rw [peeks, peeks, peek_congr hc hm, ih]

/-- After a store, a change of the state that neither reads nor writes memory (R96). -/
theorem isButStored_of_store {s v : State} {a : Addr} {bs : List Byte} (hw : memWf s = true)
    (hwr : Writable s.cfg a.toNat bs.length) (hv : store s a bs = .next v) {f : State → State}
    (hcfg : (f s).cfg = s.cfg) (hmem : ∀ m, f { s with mem := m } = { f s with mem := m }) :
    IsButStored s (f s) (f v) a bs := by
  obtain ⟨t, ht, hbut⟩ := store_then hw hwr hcfg hmem
  rw [hv] at ht
  cases ht
  exact hbut

/-! ## The obligations -/

/-- Settles O23: the data stage's two checks, the copy, and the two ends of a packet that fits. -/
theorem ep0OutDataStage : Obligations.Ep0OutDataStage := by
  intro s k hok hw hc hp
  have hrun : exec (.tokOutEp0 k) s = outInDataOut (ep0OutFlipped s) k (slot s .ep0 .rx k).bc :=
    (exec_tokOutEp0 hc (by simp [hp])).trans (handleEp0Out_dataOut hp)
  refine ⟨fun hlong => hrun.trans (outInDataOut_tooLong hlong), fun hleft hmps hwr => ?_⟩
  obtain ⟨v, hv, hfits⟩ := outInDataOut_fits (s := ep0OutFlipped s) (k := k) hok hleft hmps hwr
  rw [peeks_congr (s := s) (t := ep0OutFlipped s) rfl rfl] at hv
  rw [← peeks_length s (bufAddr s.cfg .ep0 .rx k).toNat (slot s .ep0 .rx k).bc.toNat] at hwr
  rw [hrun, hfits]
  refine ⟨fun hdone => ⟨_, if_pos hdone, ?_⟩, fun hmore => ⟨_, if_neg hmore, ?_⟩⟩
  · exact isButStored_of_store (s := ep0OutFlipped s) (f := outStageEnded _) hw hwr hv rfl fun _ => rfl
  · have hnext : packetDone s.ep.ep0 .rx (slot s .ep0 .rx k).bc .dataOut =
        advance (ep0OutFlipped s).ep.ep0 (slot s .ep0 .rx k).bc := by rw [← hp]; rfl
    rw [hnext]
    exact isButStored_of_store (s := ep0OutFlipped s) (f := outStageNext _) hw hwr hv rfl fun _ => rfl

/-- Settles O24, phase by phase. -/
theorem ep0OutStatusStages : Obligations.Ep0OutStatusStages := by
  intro s k hc
  have status (hp : s.ep.ep0.phase = .statusOut) := (exec_tokOutEp0 hc (by simp [hp])).trans (handleEp0Out_statusOut hp)
  have early (hp : s.ep.ep0.phase = .dataIn ∨ s.ep.ep0.phase = .lastIn) :=
    (exec_tokOutEp0 hc (by rcases hp with hp | hp <;> simp [hp])).trans (handleEp0Out_dataIn hp)
  refine ⟨fun hp hn => ?_, fun hp hn => ?_, ?_, fun hp => ?_⟩
  · rw [status hp, outInStatusOut_eq, if_pos hn]
  · rw [early hp, outInDataIn_eq, if_pos hn]
  · rintro (hp | hp) hn
    · rw [status hp, outInStatusOut_eq, if_neg hn]
    · rw [early hp, outInDataIn_eq, if_neg hn]
  · exact (exec_tokOutEp0 hc (by rcases hp with hp | hp <;> simp [hp])).trans (handleEp0Out_notDue hp)

/-- Settles O25: the row runs the IN handler, which arms the next packet in DataIn and ends the stage in LastIn and
StatusIn. -/
theorem ep0InAdvances : Obligations.Ep0InAdvances := by
  intro s k hok hc
  refine ⟨fun hp => ?_, fun hp => ?_, fun hp => ?_⟩
  · exact (exec_tokInEp0 hc (.inl hp)).trans (handleIn_dataIn s .ep0 k hp)
  · exact (exec_tokInEp0 hc (.inr (.inl hp))).trans (handleIn_end hok .ep0 k _ _ hp (.inl ⟨rfl, rfl⟩))
  · exact (exec_tokInEp0 hc (.inr (.inr hp))).trans (handleIn_end hok .ep0 k _ _ hp (.inr ⟨rfl, rfl⟩))

end Sys2Proof.Machine
end

section
/-! PROOFS. The SETUP completion (43_control_fsm.md): every request completes with an outcome and leaves the setup
packet, because what it stores fits the block's own regions; so the handler always completes (R272, R273). -/

namespace Sys2Proof.Machine

/-! ## Requests complete -/

/-- The request completes with an outcome and leaves the setup packet as it was (R273). -/
def Answers (s : State) (r : ReqRes) : Prop := ∃ o t, r = .next (o, t) ∧ t.setup = s.setup

/-- The handling of a request completes, leaves the setup packet as it was and has the tokens released (R272). -/
def Finishes (s : State) (r : Res) : Prop :=
  ∃ t, r = .next t ∧ t.setup = s.setup ∧ t.sie.tokenSuspended = false

section
variable {s : State} {r : ReqRes}

theorem answers_next {t : State} {o : ReqOutcome} (h : t.setup = s.setup) : Answers s (.next (o, t)) := ⟨o, t, rfl, h⟩

theorem answers_fail (c : StallCause) : Answers s (fail s c) := answers_next rfl

theorem Answers.ite {p : Prop} [Decidable p] {a b : ReqRes} (ha : Answers s a) (hb : Answers s b) :
    Answers s (if p then a else b) := by
  split
  · exact ha
  · exact hb

/-- A check that fails with a cause, in front of the rest of a request. -/
theorem Answers.check {p : Prop} [Decidable p] {c : StallCause} (h : Answers s r) :
    Answers s (if p then fail s c else r) := .ite (answers_fail c) h

/-- The checks of the CDC hook, in front of the rest of a request (R411). -/
theorem Answers.cdc {lenOk : Bool} {x : BitVec 16} (h : Answers s r) :
    Answers s (match cdcCheck s lenOk x with
      | some c => fail s c
      | none => r) := by
  cases cdcCheck s lenOk x with
  | some c => exact answers_fail c
  | none => exact h

/-- A reply whose bytes are stored first, where the store goes on. -/
theorem answers_stored {u v : State} {a : Addr} {b : List Byte} {o : ReqOutcome} (hu : u.setup = s.setup)
    (hv : store u a b = .next v) : Answers s (andThen (store u a b) fun s' => .next (o, s')) := by
  rw [hv]
  refine answers_next ?_
  rw [(store_next hv).1]
  exact hu

/-- Applying an outcome goes on, and releases the tokens (R272). -/
theorem finishes {bm : Byte} {l : BitVec 16} (h : Answers s r) : Finishes s (finishRequest bm l r) := by
  obtain ⟨o, v, rfl, hv⟩ := h
  obtain ⟨w, hw, ht⟩ := finish_stage (s := v) (bm := bm) (l := l) (o := o) rfl
  have hstage : w.setup = v.setup := by cases hw <;> rfl
  exact ⟨_, rfl, by rw [ht]; exact hstage.trans hv, by rw [ht]; rfl⟩

theorem answers_deviceFeature (x : BitVec 16) (v : Bool) : Answers s (deviceFeature s x v) :=
  .ite (.ite (answers_next rfl) (answers_fail _)) (.check (answers_fail _))

/-- SET_CONFIGURATION rebuilds endpoints and writes device registers (R329, R330). -/
theorem configure_setup (v : BitVec 16) : (configure s v).setup = s.setup := by
  have hb : (nonControl s.cfg).foldl build s = allRebuilt s true := foldl_rebuild_eq s true
  have ht : (nonControl s.cfg).foldl teardown s = allRebuilt s false := foldl_rebuild_eq s false
  unfold configure
  rw [hb, ht]
  split
  · rfl
  · split <;> rfl

theorem backendCalls_setup (s : State) (l : List BackendCall) : (l.foldl backendCall s).setup = s.setup := by
  induction l generalizing s with
  | nil => rfl
  | cons b l ih => exact (ih _).trans (backendCall_setup s b)

variable (hok : buildOk s.cfg = true)
include hok

/-- Short replies fit EP0's TX buffer (R310). -/
theorem answers_replyStaged {b : List Byte} (hb : b.length ≤ 8) : Answers s (replyStaged s b) :=
  answers_stored rfl (store_buf hok (ep0_lt hok) .tx _ (by have := ep0Mps_cases hok; rw [mps_ep0]; omega))

/-- An encoded string fits the scratch buffer (R206, R325). -/
theorem answers_replyDescriptor (type idx : Byte) : Answers s (replyDescriptor s (descLookup s.cfg type idx)) := by
  cases hx : descLookup s.cfg type idx with
  | none => exact answers_fail _
  | some x =>
    cases x with
    | rom a n => exact answers_next rfl
    | bytes b => exact answers_stored rfl (store_scratch hok (descLookup_bytes hx ▸ encodeString_length hok _))

/-- A hook's staging writes fit the line-coding buffer (R410(b)). -/
theorem stagingWrites_next (ws : List (Fin 7 × Byte)) :
    ∃ t, stagingWrites s ws = .next t ∧ t.setup = s.setup := by
  induction ws generalizing s with
  | nil => exact ⟨s, rfl, rfl⟩
  | cons w ws ih =>
    obtain ⟨i, b⟩ := w
    have hin : s.cfg.lcAddr.toNat + i + 1 ≤ s.cfg.lcAddr.toNat + 7 := by omega
    have hw := ram_within hok (lc_mem s.cfg) (a := s.cfg.lcAddr.toNat + i) (Nat.le_add_right _ _) hin
    have haddr : (s.cfg.lcAddr + BitVec.ofNat 32 i).toNat = s.cfg.lcAddr.toNat + i := by
      simp only [BitVec.toNat_add, BitVec.toNat_ofNat]; omega
    rw [← haddr] at hw
    rw [stagingWrites, store_ok (bs := [b]) hw.1 hw.2]
    exact ih (by exact hok)

theorem answers_runHookReply (bm : Byte) (x : HookReply) : Answers s (runHookReply s bm x) := by
  obtain ⟨v, hv, hsetup⟩ := stagingWrites_next hok x.staging
  refine .check ?_
  rw [hv]
  exact answers_next ((backendCalls_setup v x.calls).trans hsetup)

/-- Every SETUP row completes and releases the tokens (R272, R273). -/
theorem execRequest_finishes {i : Instr} (hi : i.row.format = .setup) : Finishes s (execRequest i s) := by
  cases i with
  | getStatusDevice | getConfiguration => exact finishes (.check (.check (answers_replyStaged hok (by simp))))
  | getStatusInterface | getInterface =>
    exact finishes (.check (.check (.check (answers_replyStaged hok (by simp)))))
  | getStatusEndpoint v x l =>
    refine finishes (.check (.check ?_))
    cases epCheck s x with
    | none => exact answers_fail _
    | some e => exact answers_replyStaged hok (by simp)
  | clearFeatureDevice | setFeatureDevice => exact finishes (.check (.check (answers_deviceFeature _ _)))
  | clearFeatureInterface | setFeatureInterface => exact finishes (.check (.check (.check (answers_fail _))))
  | clearFeatureEndpoint v x l | setFeatureEndpoint v x l =>
    refine finishes (.check (.check ?_))
    cases epCheck s x with
    | none => exact answers_fail _
    | some e => exact .check (answers_next (by split <;> simp))
  | setAddress => exact finishes (.check (.check (.check (answers_next rfl))))
  | getDescriptorDevice | getDescriptorConfiguration | getDescriptorString =>
    exact finishes (.check (answers_replyDescriptor hok _ _))
  | getDescriptorOther => exact finishes (.check (answers_fail _))
  | setConfiguration => exact finishes (.check (.check (.check (answers_next (configure_setup _)))))
  | setInterface => exact finishes (.check (.check (.check (.check (answers_next rfl)))))
  | setDescriptor | synchFrame | stdUnmatched | classUnmatched | reservedType => exact finishes (answers_fail _)
  | cdcSetLineCoding | cdcSetControlLineState | cdcSendBreak => exact finishes (.cdc (answers_next rfl))
  | cdcGetLineCoding =>
    have hlen : (lineCodingBytes s.backend.lc).length ≤ 7 := by simp [lineCodingBytes, bytes32]
    exact finishes (.cdc (answers_stored rfl (store_lc (s := backendCall s .getLineCoding) hok hlen)))
  | vendorRequest =>
    refine finishes (.check ?_)
    cases s.cfg.vendorHook with
    | none => exact answers_fail _
    | some rows => exact answers_runHookReply hok _ _
  | tokSetupEp0 | tokOutEp0 | tokInEp0 | tokOutEpn | tokInEpn | tokSetupEpn | evUsbrst | evError | evSoftok | evTokdne
    | evSleep | evResume | evStall | startTx | startRx | stall | clearStall | setCallback | notify | sendData
    | receiveData | isConfigured => cases hi

end

/-! ## The SETUP handler -/

/-- A SETUP row means the same in the handler and in the table (R273). -/
theorem execRequest_eq {i : Instr} (hi : i.row.format = .setup) (s : State) : execRequest i s = exec i s := by
  cases i with
  | tokSetupEp0 | tokOutEp0 | tokInEp0 | tokOutEpn | tokInEpn | tokSetupEpn | evUsbrst | evError | evSoftok | evTokdne
    | evSleep | evResume | evStall | startTx | startRx | stall | clearStall | setCallback | notify | sendData
    | receiveData | isConfigured => cases hi
  | _ => rfl

/-- The handler reads the packet in EP0's RX buffer, resynchronises, and runs its request or stalls with S1 (R272). -/
theorem handleSetup_eq {s : State} (hok : buildOk s.cfg = true) (k : Bool) :
    handleSetup s k =
      let p := setupAt s (bufAddr s.cfg .ep0 .rx k).toNat
      if (slot s .ep0 .rx k).bc ≠ 8 then .next (stalledRequest (setupResynced s p) .s1)
      else execRequest (decodeSetup p) (setupResynced s p) := by
  have hmps : 8 ≤ mps s.cfg .ep0 := by have := ep0Mps_cases hok; rw [mps_ep0]; omega
  unfold handleSetup
  rw [load_buf hok (ep0_lt hok) .rx k hmps]
  simp only [andThen, setup_ofList, Option.getD_some, setupRest, resyncEp0_eq, raiseStall_eq]
  rfl

/-- An expected SETUP completion runs the handler: every phase of EP0 expects one (R288, R372). -/
theorem exec_tokSetupEp0 {s : State} {k : Bool} (hc : Completed s .ep0 .rx k pidSetup) :
    exec (.tokSetupEp0 k) s = handleSetup s k := served hc rfl _

/-- Settles O22: the handler's two branches are the statement's, and each completes: the stall by itself, a request
because it does in every state. -/
theorem setupCompletionRunsRequest : Obligations.SetupCompletionRunsRequest := by
  intro s k hok hc p
  have hrun := (exec_tokSetupEp0 hc).trans (handleSetup_eq hok k)
  have hformat := (names_decodeSetup p).format
  refine ⟨fun hn => hrun.trans (if_pos hn), fun hn => ?_, ?_⟩
  · exact (hrun.trans (if_neg (not_not.2 hn))).trans (execRequest_eq hformat _)
  · by_cases hn : (slot s .ep0 .rx k).bc = 8
    · rw [hrun.trans (if_neg (not_not.2 hn))]
      exact execRequest_finishes (s := setupResynced s p) hok hformat
    · exact ⟨_, hrun.trans (if_pos hn), rfl, rfl⟩

end Sys2Proof.Machine
end

section
/-! PROOFS. A SETUP is accepted in every phase of EP0 (R288, R442): with none queued, EP0's RX slot is armed with
`EP0_MPS` bytes at its internal buffer whatever the phase is, and the tokens are free (R55, R162). -/

namespace Sys2Proof.Machine

section
variable {s : State}

/-- No completion of EP0's RX direction is queued (R44). -/
theorem queued_ep0Rx_zero (h : ∀ c ∈ s.sie.tokq, ¬ (c.ep = 0 ∧ c.dir = .rx)) : queued s .ep0 .rx = 0 := by
  rw [queued, List.length_eq_zero_iff, List.filter_eq_nil_iff]
  intro c hc hx
  simp only [ofEp, Bool.and_eq_true, beq_iff_eq] at hx
  exact h c hc ⟨BitVec.eq_of_toNat_eq hx.1, hx.2⟩

/-- EP0's RX slot while nothing of it is queued after the first bus reset: the SIE points at the selector's slot, which
it owns, with room for a packet at the internal buffer (R55, R60). -/
theorem ep0Rx_armed (hs : SlotInv s) (ha : ArmInv s) (hc : s.dev.conn ≠ .attached) (hq : queued s .ep0 .rx = 0) :
    s.sie.odd.ep0.rx = s.ep.ep0.odd.rx ∧ (slot s .ep0 .rx s.ep.ep0.odd.rx).own = true ∧
      (slot s .ep0 .rx s.ep.ep0.odd.rx).bc = BitVec.ofNat 10 s.cfg.ep0Mps ∧
      (slot s .ep0 .rx s.ep.ep0.odd.rx).addr = bufAddr s.cfg .ep0 .rx s.ep.ep0.odd.rx := by
  have hptr := hs.pointer .ep0 .rx
  rw [if_pos hq] at hptr
  exact ⟨hptr, ha.armed .ep0 .rx (hs.legal .ep0) (fun _ => hc) hq, ha.rx hc hq⟩

/-- Tokens are suspended only while a SETUP of EP0 is queued (R162). -/
theorem tokens_free (ha : ArmInv s) (h : ∀ c ∈ s.sie.tokq, ¬ (c.ep = 0 ∧ c.dir = .rx)) :
    s.sie.tokenSuspended = false := by
  rw [← Bool.not_eq_true]
  intro ht
  obtain ⟨c, hc, hep, hdir, -⟩ := ha.tokens ht
  exact h c hc ⟨hep, hdir⟩

/-- The setup packet where its 8 bytes are stored (R111). -/
theorem setupAt_stored {t : State} {a : Addr} {b0 b1 b2 b3 b4 b5 b6 b7 : Byte}
    (h : StoredAt s t a [b0, b1, b2, b3, b4, b5, b6, b7]) :
    setupAt t a.toNat = Setup.ofBytes b0 b1 b2 b3 b4 b5 b6 b7 := by
  unfold StoredAt at h
  simp [setupAt, h]

end

/-- Settles O54: the SETUP reaches EP0, whose RX slot the invariants have armed, and is stored in it. -/
theorem setupIsAlwaysAccepted : Obligations.SetupIsAlwaysAccepted := by
  intro s b0 b1 b2 b3 b4 b5 b6 b7 hok hw hs ha hconn hact hnone hroom
  have hreach : Reaches s s.dev.addr 0 .rx .ep0 := ⟨rfl, hact, rfl, ep0_lt hok, hs.ep0On, .inl rfl⟩
  have hfree : ¬ HeldOff s := by simp [HeldOff, tokens_free ha hnone, hroom]
  obtain ⟨hptr, hown, hbc, haddr⟩ := ep0Rx_armed hs ha hconn (queued_ep0Rx_zero hnone)
  have hmps := ep0Mps_cases hok
  obtain ⟨hin, hrom⟩ := ram_within hok (buf_mem (ep0_lt hok) .rx s.ep.ep0.odd.rx) (n := 8) (le_refl _)
    (Nat.add_le_add_left (show 8 ≤ s.cfg.ep0Mps by omega) _)
  obtain ⟨-, -, haccept⟩ := setupTransaction s s.dev.addr 0 [b0, b1, b2, b3, b4, b5, b6, b7] hw hreach
  rw [hptr] at haccept
  rw [← haddr] at hin hrom
  obtain ⟨t, u, ht, rfl, hbut, hstored⟩ := haccept hfree hown
    (by rw [hbc, BitVec.toNat_ofNat]; simp only [List.length_cons, List.length_nil]; omega) ⟨hin, hrom⟩
  rw [haddr] at hstored
  have hsie := congrArg State.sie hbut
  refine ⟨t, ht, ?_, ?_, ?_, setupAt_stored hstored⟩
  · exact congrArg Sie.answer hsie
  · exact congrArg Sie.tokenSuspended hsie
  · exact congrArg Sie.tokq hsie

end Sys2Proof.Machine
end

section
/-! PROOFS. The moves of EP0's phase (43_control_fsm.md): only the dispatcher's bus reset and token completions touch
EP0's record, and a completion other than a SETUP moves its phase along R286. -/

namespace Sys2Proof.Machine

/-! ## Results that keep EP0's record -/

/-- Wherever the result goes on, EP0's record is `x`. -/
def KeepsEp0 (x : EndpointState) (r : Res) : Prop := ∀ t, r = .next t → t.ep.ep0 = x

section
variable {s : State} {x : EndpointState}

theorem keepsEp0_next {t : State} (h : t.ep.ep0 = x) : KeepsEp0 x (.next t) := by rintro _ ⟨⟩; exact h

theorem keepsEp0_refused (y : Refusal) : KeepsEp0 x (.refused y) := by rintro _ ⟨⟩

theorem KeepsEp0.ite {p : Prop} [Decidable p] {a b : Res} (ha : KeepsEp0 x a) (hb : KeepsEp0 x b) :
    KeepsEp0 x (if p then a else b) := by
  split
  · exact ha
  · exact hb

/-- A store, then a part that keeps the record. -/
theorem keepsEp0_store {a : Addr} {bs : List Byte} {f : State → Res}
    (hf : ∀ v, v.ep = s.ep → KeepsEp0 x (f v)) : KeepsEp0 x (andThen (store s a bs) f) := by
  intro t ht
  obtain ⟨v, hv, ht⟩ := andThen_next.1 ht
  exact hf v (calm_store hv).ep t ht

/-- Another endpoint's record written leaves EP0's. -/
theorem ep0_set {α : Type} (b : EpBank α) {e : EpId} (he : e ≠ .ep0) (v : α) : (b.set e v).ep0 = b.ep0 := by
  have h := EpBank.get_set b e .ep0 v
  rwa [if_neg he.symm] at h

/-! ## Client commands -/

theorem beginTx_ep0 {i : EpId} (hi : i ≠ .ep0) (buf : Addr) (len : BitVec 16) :
    (beginTx s i len (transferAddr s i .tx buf)).ep.ep0 = s.ep.ep0 := by
  rw [beginTx_eq]
  exact ep0_set _ hi _

theorem beginRx_ep0 {i : EpId} (hi : i ≠ .ep0) (buf : Addr) (len : BitVec 16) :
    (beginRx s i len (transferAddr s i .rx buf)).ep.ep0 = s.ep.ep0 := by
  rw [beginRx_eq]
  exact ep0_set _ hi _

/-- A start that is lost, refused or begun on the endpoint its checks answer (R233, R234, R244). -/
theorem keepsEp0_started {c : Except FaultReason EpId} {admitted : EpId → Bool} {lost : FaultReason → State}
    {begun : EpId → State} (hl : ∀ r, (lost r).ep.ep0 = x) :
    (∀ i, c = .ok i → (begun i).ep.ep0 = x) → KeepsEp0 x (match c with
      | .error r => .next (lost r)
      | .ok i => if admitted i then .next (begun i) else .refused .clientBuffer) := by
  intro hb
  cases c with
  | error r => exact keepsEp0_next (hl r)
  | ok i => exact .ite (keepsEp0_next (hb i rfl)) (keepsEp0_refused _)

theorem keepsEp0_execStartTx (e : BitVec 8) (len : BitVec 16) (buf : Addr) :
    KeepsEp0 s.ep.ep0 (execStartTx e len buf s) :=
  keepsEp0_started (fun _ => rfl) fun _ hi =>
    have ⟨⟨h0, _⟩, _⟩ := startCheck_ok hi
    beginTx_ep0 h0 _ _

theorem keepsEp0_execStartRx (e : BitVec 8) (len : BitVec 16) (buf : Addr) :
    KeepsEp0 s.ep.ep0 (execStartRx e len buf s) :=
  keepsEp0_started (fun _ => rfl) fun _ hi =>
    have ⟨⟨h0, _⟩, _⟩ := startCheck_ok hi
    beginRx_ep0 h0 _ _

theorem keepsEp0_execSendData (buf : Addr) (len : BitVec 16) : KeepsEp0 s.ep.ep0 (execSendData buf len s) :=
  keepsEp0_started (fun _ => rfl) fun _ hi =>
    have ⟨⟨h0, _⟩, _⟩ := roleCheck_ok hi
    beginTx_ep0 h0 _ _

theorem keepsEp0_execReceiveData (buf : Addr) (n : BitVec 16) : KeepsEp0 s.ep.ep0 (execReceiveData buf n s) :=
  keepsEp0_started (fun _ => rfl) fun _ hi =>
    have ⟨⟨h0, _⟩, _⟩ := roleCheck_ok hi
    beginRx_ep0 h0 _ _

theorem keepsEp0_execNotify (s : State) (v : BitVec 16) : KeepsEp0 s.ep.ep0 (execNotify v s) := by
  unfold execNotify
  cases epNotify s.cfg with
  | none => exact keepsEp0_next rfl
  | some e =>
    exact .ite (keepsEp0_next rfl) (.ite (keepsEp0_next rfl)
      (keepsEp0_store fun _ hv => hv ▸ keepsEp0_execStartTx _ _ _))

/-- A command that changes the endpoint it names, or is lost (R240-R242). -/
theorem keepsEp0_named {e : BitVec 8} {f : EpId → State} (hf : ∀ i, i ≠ .ep0 → (f i).ep.ep0 = s.ep.ep0) :
    KeepsEp0 s.ep.ep0 (match clientEp s e with
      | none => .next (raiseFault s .f2)
      | some i => .next (f i)) := by
  cases hc : clientEp s e with
  | none => exact keepsEp0_next rfl
  | some i =>
    obtain ⟨-, ⟨h0, -⟩, -⟩ := clientEp_some.1 hc
    exact keepsEp0_next (hf i h0)

theorem haltReset_ep0 {i : EpId} (hi : i ≠ .ep0) (st : Bool) (p : Phase) :
    (haltReset s i st p).ep.ep0 = s.ep.ep0 := by
  rw [haltReset_eq]
  exact ep0_set _ hi _

theorem keepsEp0_execStall (e : BitVec 8) : KeepsEp0 s.ep.ep0 (execStall e s) :=
  keepsEp0_named fun i hi => by
    rw [stallEp, if_neg hi]
    exact haltReset_ep0 hi true .stall

theorem keepsEp0_execClearStall (e : BitVec 8) : KeepsEp0 s.ep.ep0 (execClearStall e s) :=
  keepsEp0_named fun _ hi => haltReset_ep0 hi false .idle

theorem keepsEp0_execSetCallback (e : BitVec 8) (n : Nat) : KeepsEp0 s.ep.ep0 (execSetCallback e n s) :=
  keepsEp0_named fun _ hi => ep0_set _ hi _

/-- Every client command (R133). -/
theorem keepsEp0_runClient (word : List Byte) : KeepsEp0 s.ep.ep0 (runClient word s) := by
  unfold runClient decode
  cases hd : decodeCmd word with
  | none => exact keepsEp0_refused _
  | some i =>
    unfold decodeCmd at hd
    repeat' split at hd
    all_goals cases hd
    · exact keepsEp0_next rfl
    · exact keepsEp0_execStall _
    · exact keepsEp0_execClearStall _
    · exact keepsEp0_execNotify s _
    · exact keepsEp0_execSetCallback _ _
    · exact keepsEp0_execSendData _ _
    · exact keepsEp0_execReceiveData _ _
    · exact keepsEp0_execStartTx _ _ _
    · exact keepsEp0_execStartRx _ _ _

/-! ## Host transactions -/

theorem keepsEp0_overrun (y : Slot) : KeepsEp0 s.ep.ep0 (overrun s y) :=
  keepsEp0_store fun _ hv => keepsEp0_next (congrArg EpBank.ep0 hv)

theorem keepsEp0_hostSetup (a : BitVec 7) (e : BitVec 4) (data : List Byte) :
    KeepsEp0 s.ep.ep0 (hostSetup a e data s) :=
  .ite (keepsEp0_next rfl) (.ite (keepsEp0_next rfl) (.ite (keepsEp0_next rfl) (.ite (keepsEp0_overrun _)
    (keepsEp0_store fun _ hv => keepsEp0_next (congrArg EpBank.ep0 hv)))))

theorem keepsEp0_hostOut (a : BitVec 7) (e : BitVec 4) (p : Bool) (data : List Byte) :
    KeepsEp0 s.ep.ep0 (hostOut a e p data s) := by
  unfold hostOut
  cases tokenTo s a e with
  | none => exact keepsEp0_next rfl
  | some i =>
    exact .ite (.ite (keepsEp0_next rfl) (.ite (keepsEp0_next rfl) (.ite (keepsEp0_overrun _)
      (.ite (keepsEp0_next rfl) (keepsEp0_store fun _ hv => keepsEp0_next (congrArg EpBank.ep0 hv))))))
      (keepsEp0_next rfl)

theorem keepsEp0_hostIn (a : BitVec 7) (e : BitVec 4) (ack : Bool) : KeepsEp0 s.ep.ep0 (hostIn a e ack s) := by
  unfold hostIn
  cases tokenTo s a e with
  | none => exact keepsEp0_next rfl
  | some i =>
    refine .ite (.ite (keepsEp0_next rfl) (.ite (keepsEp0_next rfl) fun t ht => ?_)) (keepsEp0_next rfl)
    obtain ⟨b, -, ht⟩ := andThen_next.1 ht
    cases ht
    split <;> rfl

/-- Every line but INIT and the dispatcher's (R135). -/
theorem keepsEp0_runLine {l : Line} (hi : l ≠ .init) (hd : ∀ g, l ≠ .dispatch g) :
    KeepsEp0 s.ep.ep0 (runLine l s) := by
  cases l with
  | init => exact absurd rfl hi
  | dispatch g => exact absurd rfl (hd g)
  | hReset | hSof | hIdle | hResume => exact keepsEp0_next rfl
  | hSetup a e data => exact keepsEp0_hostSetup a e data
  | hOut a e p data => exact keepsEp0_hostOut a e p data
  | hIn a e ack => exact keepsEp0_hostIn a e ack
  | hError y => exact .ite (keepsEp0_refused _) (keepsEp0_next rfl)
  | client word => exact keepsEp0_runClient word
  | backend v => exact keepsEp0_execNotify { s with backend := { s.backend with lineState := v } } v
  | memWrite a data => exact fun t ht => congrArg EpBank.ep0 (calm_store ht).ep

end

end Sys2Proof.Machine
end

section
namespace Sys2Proof.Machine

/-! ## Completions -/

/-- EP0 may stay in any phase. -/
theorem self_mem_ep0Moves (p : Phase) : p ∈ Ep0Moves p := by cases p <;> decide

/-- EP0 may halt in every phase a rule enters (R442). -/
theorem stall_mem_ep0Moves : ∀ p ∈ ep0Phases, Phase.stall ∈ Ep0Moves p := by decide

section
variable {s t u : State} {e : EpId} {d : Dir} {k : Bool}

/-- One endpoint's record written, EP0's only with a phase of R286. -/
theorem ep0Moves_set {y : EndpointState} (ht : t.ep.get .ep0 = (u.ep.set e y).get .ep0)
    (hy : e = .ep0 → y.phase ∈ Ep0Moves u.ep.ep0.phase) : t.ep.ep0.phase ∈ Ep0Moves u.ep.ep0.phase := by
  change (t.ep.get .ep0).phase ∈ _
  rw [ht, EpBank.get_set]
  split
  · next he => exact hy he.symm
  · exact self_mem_ep0Moves _

/-- A served completion that is no SETUP moves EP0's phase along R286, an OUT in a phase a rule enters. -/
theorem Served.ep0Moves (h : Served u e d k t)
    (hpid : e = .ep0 → d = .rx → (slot u .ep0 .rx k).pid ≠ pidSetup)
    (hout : e = .ep0 → d = .rx → (slot u .ep0 .rx k).pid = pidOut → u.ep.ep0.phase ∈ ep0Phases) :
    t.ep.ep0.phase ∈ Ep0Moves u.ep.ep0.phase := by
  have along {p q : Phase} (hp : u.ep.ep0.phase = p) (hq : q ∈ Ep0Moves p) : q ∈ Ep0Moves u.ep.ep0.phase := hp ▸ hq
  cases h with
  | inNext hp =>
    refine ep0Moves_set rfl ?_
    rintro rfl
    refine along hp ?_
    simp only [packetDone, inPhase]
    split <;> decide
  | inEnd hp hpq =>
    refine ep0Moves_set (callbackRan_same _ _ _ _).record ?_
    rintro rfl
    refine along hp ?_
    rcases hpq with ⟨rfl, rfl⟩ | ⟨rfl, rfl⟩
    · exact (show Phase.statusOut ∈ Ep0Moves .lastIn by decide)
    · exact (show Phase.idle ∈ Ep0Moves .statusIn by decide)
  | outNext h0 => exact ep0Moves_set rfl fun he => absurd he h0
  | outEnd h0 => exact ep0Moves_set (callbackRan_same _ _ _ _).record fun he => absurd he h0
  | outStall c hp => exact stall_mem_ep0Moves _ (hout rfl rfl hp)
  | outStatus hp => exact along hp (show Phase.idle ∈ Ep0Moves .statusOut by decide)
  | outEarly hp =>
    rcases hp with hp | hp
    · exact along hp (show Phase.idle ∈ Ep0Moves .dataIn by decide)
    · exact along hp (show Phase.idle ∈ Ep0Moves .lastIn by decide)
  | @outData _ v n hp hc =>
    have hv : v.ep.ep0.phase = u.ep.ep0.phase := by rw [hc.ep]; rfl
    exact hv ▸ self_mem_ep0Moves v.ep.ep0.phase
  | outDataEnd n hp =>
    exact ep0Moves_set (e := .ep0) (callbackRan_same _ _ _ _).record fun _ =>
      along hp (show Phase.statusIn ∈ Ep0Moves .dataOut by decide)
  | setup hp => exact absurd hp (hpid rfl rfl)

/-- An OUT completion of EP0 that is served found EP0 in a phase a rule enters; in another it is refused (D69;
log 21). -/
theorem ep0Out_served_phase {c : Completion} {q : List Completion} (ht : takeCompletion s.sie.tokq = some (c, q))
    (hep : c.ep.toNat = EpId.ep0.num) (hdir : c.dir = .rx) (hx : Expected s .ep0 c.dir c.odd)
    (hpid : (slot s .ep0 .rx c.odd).pid = pidOut) (h : execEvTokdne s = .next t) : s.ep.ep0.phase ∈ ep0Phases := by
  obtain ⟨hmap, -, hc, hp⟩ := hx
  rw [hdir, hpid] at hc
  rw [hdir, hpid] at hp
  rw [execEvTokdne_some ht (endpointOf_some.2 ⟨hep, hmap⟩), hdir, hpid, if_neg (by decide), if_pos ⟨rfl, rfl⟩,
    served (s := popped s q) hc hp] at h
  change handleEp0Out (popped s q) c.odd = _ at h
  unfold handleEp0Out at h
  cases hph : s.ep.ep0.phase with
  | throttle | complete =>
    rw [show (popped s q).ep.ep0.phase = _ from hph] at h
    cases h
  | _ => decide

/-- No SETUP of EP0 is queued. -/
abbrev NoSetupQueued (s : State) : Prop :=
  ∀ c ∈ s.sie.tokq, c.ep = 0 → c.dir = .rx → (slot s .ep0 .rx c.odd).pid ≠ pidSetup

/-- With no SETUP queued a token completion moves EP0's phase along R286. -/
theorem execEvTokdne_ep0Moves (hok : buildOk s.cfg = true) (hn : NoSetupQueued s) (h : execEvTokdne s = .next t) :
    t.ep.ep0.phase ∈ Ep0Moves s.ep.ep0.phase := by
  cases ht : takeCompletion s.sie.tokq with
  | none =>
    simp only [execEvTokdne, ht] at h
    cases h
    exact self_mem_ep0Moves _
  | some p =>
    obtain ⟨c, q⟩ := p
    rcases execEvTokdne_cases hok ht h with ⟨e, hep, hx, hs⟩ | ⟨-, rfl⟩
    · obtain ⟨as, bs, hq, -, -⟩ := takeCompletion_split ht
      have hc : c ∈ s.sie.tokq := by simp [hq]
      refine hs.ep0Moves ?_ ?_
      · rintro rfl hdir
        exact hn c hc (BitVec.eq_of_toNat_eq hep) hdir
      · rintro rfl hdir hpid
        exact ep0Out_served_phase (s := s) ht hep hdir hx hpid h
    · exact self_mem_ep0Moves _

end

/-! ## The step -/

section
variable {s t : State}

/-- How a dispatcher step moves EP0's phase: to Idle by a bus reset, which goes before the completions (R371, R373);
by a completion; or not at all. -/
def DispatchMove (s t : State) : Prop :=
  (pending s).getLsbD 0 = true ∧ t.ep.ep0.phase = .idle ∨
  (pending s).getLsbD 0 = false ∧ (pending s).getLsbD 3 = true ∧
    (NoSetupQueued s → t.ep.ep0.phase ∈ Ep0Moves s.ep.ep0.phase) ∨
  (pending s).getLsbD 0 = false ∧ t.ep.ep0 = s.ep.ep0

theorem keepsEp0_execEvSoftok (s : State) : KeepsEp0 s.ep.ep0 (execEvSoftok s) := by
  unfold execEvSoftok
  simp only [foldl_emit]
  cases (emit (setDev s (clearBits bitSoftok s.dev)) (.sof s.dev.frame)).hooks.sof <;> exact keepsEp0_next rfl

/-- The other events write device registers and the output only (R374-R378). -/
theorem keepsEp0_runDispatch (h0 : (pending s).getLsbD 0 = false) (h3 : (pending s).getLsbD 3 = false) (g : Bool) :
    KeepsEp0 s.ep.ep0 (runDispatch g s) := by
  unfold runDispatch
  cases hd : decodeEvent (pending s) g with
  | none => exact keepsEp0_next rfl
  | some i =>
    simp only [decodeEvent, h0, h3, Bool.false_eq_true, if_false] at hd
    repeat' split at hd
    all_goals cases hd
    · exact .ite (.ite (keepsEp0_next rfl) (keepsEp0_next rfl)) (keepsEp0_next rfl)
    · exact keepsEp0_next rfl
    · exact keepsEp0_execEvSoftok s
    · exact .ite (keepsEp0_next rfl) (keepsEp0_next rfl)
    · exact keepsEp0_next rfl

/-- A dispatcher step (R370, R371). -/
theorem runDispatch_move (hok : buildOk s.cfg = true) {g : Bool} (h : runDispatch g s = .next t) :
    DispatchMove s t := by
  cases h0 : (pending s).getLsbD 0 with
  | true =>
    simp only [runDispatch, decodeEvent, h0, if_true] at h
    cases h
    exact .inl ⟨h0, rfl⟩
  | false =>
    cases h3 : (pending s).getLsbD 3 with
    | true =>
      simp only [runDispatch, decodeEvent, h0, h3, Bool.false_eq_true, if_false, if_true] at h
      exact .inr (.inl ⟨h0, h3, fun hn => execEvTokdne_ep0Moves hok hn h⟩)
    | false => exact .inr (.inr ⟨h0, keepsEp0_runDispatch h0 h3 g t h⟩)

/-- Every step but INIT: the dispatcher's, or one that keeps EP0's record. -/
theorem step_ep0 (h : step s = .next t) (hi : nextLine s ≠ some .init) :
    DispatchNext s ∧ DispatchMove s t ∨ ¬ DispatchNext s ∧ t.ep.ep0 = s.ep.ep0 := by
  obtain ⟨hok, -⟩ := step_cases h
  obtain ⟨u, hu, rfl⟩ := step_wakes h
  have woken {v : State} (hv : DispatchMove v u) : DispatchMove v (wakeClient u) := by
    simpa only [DispatchMove, wakeClient_ep] using hv
  unfold runNext at hu
  cases hl : takeLine s s.lines with
  | none =>
    have hnext : nextLine s = none := by simp [nextLine, hl]
    refine .inl ⟨.inl hnext, woken ?_⟩
    rw [hl] at hu
    dsimp only at hu
    split at hu
    · exact runDispatch_move (s := { s with draws := s.draws + 1 }) hok hu
    · next hirq =>
      cases hu
      have hp : pending s = 0 := by simpa [irq] using hirq
      exact .inr (.inr ⟨by rw [hp]; rfl, rfl⟩)
  | some p =>
    obtain ⟨l, rest⟩ := p
    have hnext : nextLine s = some l := by simp [nextLine, hl]
    rw [hl] at hu
    by_cases hd : ∃ g, l = .dispatch g
    · obtain ⟨g, rfl⟩ := hd
      exact .inl ⟨.inr ⟨g, hnext⟩, woken (runDispatch_move (s := { s with lines := rest }) hok hu)⟩
    · have hne : ¬ DispatchNext s := by simpa [DispatchNext, hnext] using hd
      have hkeep := keepsEp0_runLine (s := { s with lines := rest }) (l := l) (fun hx => hi (hx ▸ hnext))
        (fun g hg => hd ⟨g, hg⟩) u hu
      exact .inr ⟨hne, by rw [wakeClient_ep]; exact hkeep⟩

end

/-- Settles O57: a step of another agent keeps EP0's record, and the dispatcher's moves its phase as the event it serves
does. -/
theorem ep0PhaseMoves : Obligations.Ep0PhaseMoves := by
  intro s t h hi
  rcases step_ep0 h hi with ⟨hd, ⟨h0, ht⟩ | ⟨h0, h3, ht⟩ | ⟨h0, ht⟩⟩ | ⟨hd, ht⟩
  · exact ⟨fun _ => ⟨hd, .inl h0⟩, fun _ _ => ht, fun hn => absurd (h0.symm.trans hn) (by decide)⟩
  · exact ⟨fun _ => ⟨hd, .inr h3⟩, fun hr => absurd (h0.symm.trans hr) (by decide), fun _ => ht⟩
  · rw [ht]
    exact ⟨fun hne => absurd rfl hne, fun hr => absurd (h0.symm.trans hr) (by decide), fun _ _ => self_mem_ep0Moves _⟩
  · rw [ht]
    exact ⟨fun hne => absurd rfl hne, fun _ hd' => absurd hd' hd, fun _ _ => self_mem_ep0Moves _⟩

end Sys2Proof.Machine
end

section
/-! PROOFS. The standard requests (44_standard_requests.md): the checks of a row in their order, said once for the rows
that share it (R310, R311, R335, R336), and each request's reply or effect behind them. -/

namespace Sys2Proof.Machine

/-! ## Checks in their order -/

section
variable {bm : Byte} {l n : BitVec 16} {s : State} {r : ReqRes}

/-- A check that fails stalls with its cause (R273, R310). -/
theorem finish_check_fails {p : Prop} [Decidable p] {c : StallCause} (hp : p) :
    finishRequest bm l (if p then fail s c else r) = .next (stalledRequest s c) := by
  rw [if_pos hp, finish_fail]

/-- A check that passes leaves the rest of the request (R310). -/
theorem finish_check_passes {p : Prop} [Decidable p] {c : StallCause} (hp : ¬ p) :
    finishRequest bm l (if p then fail s c else r) = finishRequest bm l r := by
  rw [if_neg hp]

/-- A check of the device state, then the rest of the request (R311). -/
theorem stateCheck {q : Res} {b : Bool} {P : Prop} (hb : b = true ↔ P)
    (hq : q = finishRequest bm l (if b = false then fail s .s3 else r)) :
    (¬ P → q = .next (stalledRequest s .s3)) ∧ (P → q = finishRequest bm l r) := by
  have hfalse : b = false ↔ ¬ P := by rw [← hb, Bool.not_eq_true]
  subst hq
  exact ⟨fun h => finish_check_fails (hfalse.2 h), fun h => finish_check_passes fun hf => hfalse.1 hf h⟩

/-- The checks of the state and the length, then the rest of the request (R310, D25). -/
theorem stateLengthChecks {q : Res} {b : Bool} {P : Prop} (hb : b = true ↔ P)
    (hq : q = finishRequest bm l (if b = false then fail s .s3 else if l ≠ n then fail s .s4 else r)) :
    (¬ P → q = .next (stalledRequest s .s3)) ∧ (P → l ≠ n → q = .next (stalledRequest s .s4)) ∧
      (P → l = n → q = finishRequest bm l r) := by
  obtain ⟨hstate, hrest⟩ := stateCheck hb hq
  exact ⟨hstate, fun h hl => (hrest h).trans (finish_check_fails hl),
    fun h hl => (hrest h).trans (finish_check_passes (not_not.2 hl))⟩

/-- The checks of a row on an interface: Configured, the length, the interface, then the rest (R310, R336). -/
theorem interfaceChecks {q : Res} {x : BitVec 16}
    (hq : q = finishRequest bm l (if inConf s = false then fail s .s3 else if l ≠ n then fail s .s4
      else if ifTargetOk s.cfg x = false then fail s .s6 else r)) :
    (s.dev.conn ≠ .configured → q = .next (stalledRequest s .s3)) ∧
      (s.dev.conn = .configured → l ≠ n → q = .next (stalledRequest s .s4)) ∧
      (s.dev.conn = .configured → l = n → s.cfg.numIf ≤ x.toNat % 256 → q = .next (stalledRequest s .s6)) ∧
      (s.dev.conn = .configured → l = n → x.toNat % 256 < s.cfg.numIf → q = finishRequest bm l r) := by
  obtain ⟨hstate, hlength, hrest⟩ := stateLengthChecks inConf_iff hq
  exact ⟨hstate, hlength, fun h hl hx => (hrest h hl).trans (finish_check_fails (ifTargetOk_false.2 hx)),
    fun h hl hx => (hrest h hl).trans (finish_check_passes (by simp [ifTargetOk_iff.2 hx]))⟩

/-- The checks of a row on an endpoint: the state, the length, the endpoint `e`, then the rest for it (R310, R335). -/
theorem endpointChecks {q : Res} {x : BitVec 16} {f : EpId → ReqRes}
    (hq : q = finishRequest bm l (if inDefAddrConf s = false then fail s .s3 else if l ≠ n then fail s .s4
      else match epCheck s x with
        | none => fail s .s6
        | some e => f e)) :
    (¬ DefAddrConf s → q = .next (stalledRequest s .s3)) ∧
      (DefAddrConf s → l ≠ n → q = .next (stalledRequest s .s4)) ∧
      (DefAddrConf s → l = n → (∀ e, ¬ EpTarget s x e) → q = .next (stalledRequest s .s6)) ∧
      (∀ e, DefAddrConf s → l = n → EpTarget s x e → q = finishRequest bm l (f e)) := by
  obtain ⟨hstate, hlength, hrest⟩ := stateLengthChecks inDefAddrConf_iff hq
  refine ⟨hstate, hlength, fun h hl hx => (hrest h hl).trans ?_, fun e h hl hx => (hrest h hl).trans ?_⟩
  · rw [epCheck_none.2 hx]
    exact finish_fail bm l s .s6
  · rw [epCheck_some.2 hx]

/-- A staged reply as long as the host asked for is sent whole (R310). -/
theorem finish_staged_whole (h : bm.getLsbD 7 = true) {b : List Byte} (hok : buildOk s.cfg = true)
    (hw : memWf s = true) (hb : b.length ≤ 8) (hl : l.toNat = b.length) :
    let a := bufAddr s.cfg .ep0 .tx s.ep.ep0.odd.tx
    ∃ t, finishRequest bm l (replyStaged s b) = .next t ∧
      IsButStored s (tokensFree (dataInStage s a b.length none)) t a b := by
  simpa only [hl, min_self] using finish_staged h l hok hw hb

end

/-! ## GET_STATUS, GET_CONFIGURATION and the interface rows -/

/-- The device status byte as a number (R124). -/
theorem deviceStatus_eq (d : DeviceState) :
    deviceStatus d = BitVec.ofNat 8 (d.selfPowered.toNat + 2 * d.remoteWakeup.toNat) := by
  unfold deviceStatus
  cases d.selfPowered <;> cases d.remoteWakeup <;> rfl

/-- Settles O1: past the checks the row stages the status byte and a zero. -/
theorem getStatusDeviceReplies : Obligations.GetStatusDeviceReplies := by
  intro s v x l hok hw
  obtain ⟨hstate, hlength, hrest⟩ := stateLengthChecks (q := exec (.getStatusDevice v x l) s) inDefAddrConf_iff rfl
  refine ⟨hstate, hlength, fun h hl => ?_⟩
  rw [hrest h hl, ← deviceStatus_eq]
  exact finish_staged_whole rfl hok hw (by simp) (by rw [hl]; rfl)

/-- Settles O2: the two rows differ in the length alone. -/
theorem interfaceStatusAndSettingReplyZero : Obligations.InterfaceStatusAndSettingReplyZero := by
  intro s v x l status hok hw r n a
  have hn : n < 9 := by cases status <;> decide
  have hq : r = finishRequest 0x81 l (if inConf s = false then fail s .s3
      else if l ≠ BitVec.ofNat 16 n then fail s .s4
      else if ifTargetOk s.cfg x = false then fail s .s6 else replyStaged s (List.replicate n 0)) := by
    cases status <;> rfl
  have hlen : l = BitVec.ofNat 16 n ↔ l.toNat = n := by
    rw [← BitVec.toNat_inj, BitVec.toNat_ofNat, Nat.mod_eq_of_lt (by omega)]
  obtain ⟨hstate, hlength, htarget, hrest⟩ := interfaceChecks hq
  simp only [ne_eq, hlen] at hlength htarget hrest
  refine ⟨hstate, hlength, htarget, fun h hl hx => ?_⟩
  have hreply := finish_staged_whole (bm := 0x81) (l := l) (b := List.replicate n 0) rfl hok hw
    (by rw [List.length_replicate]; omega) (by rw [List.length_replicate, hl])
  rw [List.length_replicate] at hreply
  rwa [hrest h hl hx]

/-- Settles O3: `epCheck` finds the target, whose halt is its phase. -/
theorem getStatusEndpointRepliesHalt : Obligations.GetStatusEndpointRepliesHalt := by
  intro s v x l hok hw
  obtain ⟨hstate, hlength, htarget, hrest⟩ := endpointChecks (q := exec (.getStatusEndpoint v x l) s) rfl
  refine ⟨hstate, hlength, htarget, fun e h hl he => ?_⟩
  rw [hrest e h hl he]
  have hhalt : (if halted s e then 0x01 else 0x00 : Byte) = if (s.ep.get e).phase = .stall then 1 else 0 := by
    simp [halted]
  rw [hhalt]
  exact finish_staged_whole rfl hok hw (by simp) (by rw [hl]; rfl)

/-- Settles O13: past the checks the row stages the configuration number. -/
theorem getConfigurationReplies : Obligations.GetConfigurationReplies := by
  intro s v x l hok hw
  obtain ⟨hstate, hlength, hrest⟩ := stateLengthChecks (q := exec (.getConfiguration v x l) s) inDefAddrConf_iff rfl
  refine ⟨hstate, hlength, fun h hl => ?_⟩
  rw [hrest h hl]
  exact finish_staged_whole rfl hok hw (by simp) (by rw [hl]; rfl)

/-- Settles O15: one check more than the interface rows share, then nothing but the status stage. -/
theorem setInterfaceAcknowledges : Obligations.SetInterfaceAcknowledges := by
  intro s v x l
  obtain ⟨hstate, hlength, htarget, hrest⟩ := interfaceChecks (q := exec (.setInterface v x l) s) rfl
  refine ⟨hstate, hlength, htarget, fun h hl hx hv => (hrest h hl hx).trans (finish_check_fails hv),
    fun h hl hx hv => (hrest h hl hx).trans ?_⟩
  exact (finish_check_passes (not_not.2 hv)).trans (finish_noData 0x01 l s none)

/-! ## CLEAR_FEATURE and SET_FEATURE -/

/-- Settles O4: both rows are `deviceFeature`, which asks for the selector and then for the capability. -/
theorem deviceFeatureSetsRemoteWakeup : Obligations.DeviceFeatureSetsRemoteWakeup := by
  intro s v x l on r
  have hq : r = finishRequest 0x00 l (if inDefAddrConf s = false then fail s .s3
      else if l ≠ 0 then fail s .s4 else deviceFeature s v on) := by cases on <;> rfl
  obtain ⟨hstate, hlength, hrest⟩ := stateLengthChecks inDefAddrConf_iff hq
  refine ⟨hstate, hlength, fun h hl hv hcap => ?_, fun h hl hv hcap => ?_, fun h hl hv => ?_, fun h hl h1 h2 => ?_⟩
  all_goals rw [hrest h hl, deviceFeature]
  · rw [if_pos hv, if_pos hcap]
    exact finish_noData 0x00 l _ none
  · rw [if_pos hv, if_neg (by simp [hcap]), finish_fail]
  · rw [if_neg (by rw [hv]; decide), if_pos hv, finish_fail]
  · rw [if_neg h1, if_neg h2, finish_fail]

/-- Settles O5: the checks the interface rows share, then a stall for every feature. -/
theorem interfaceFeatureStalls : Obligations.InterfaceFeatureStalls := by
  intro s v x l on r
  have hq : r = finishRequest 0x01 l (if inConf s = false then fail s .s3 else if l ≠ 0 then fail s .s4
      else if ifTargetOk s.cfg x = false then fail s .s6 else fail s .s10) := by cases on <;> rfl
  obtain ⟨hstate, hlength, htarget, hrest⟩ := interfaceChecks hq
  exact ⟨hstate, hlength, htarget, fun h hl hx => (hrest h hl hx).trans (finish_fail 0x01 l s .s10)⟩

/-- What a feature request that passes its checks does to the endpoint it names: nothing if that is EP0 (R317, R320). -/
def featureApplied (s : State) (on : Bool) (e : EpId) : State :=
  if e = .ep0 then s else if on then stallEp s e else clearStallEp s e

@[simp] theorem featureApplied_ep0 (s : State) (on : Bool) : featureApplied s on .ep0 = s := if_pos rfl

/-- On another endpoint than EP0 a feature request halts it or ends its halt (R238, R239). -/
theorem featureApplied_eq {e : EpId} (he : e ≠ .ep0) (s : State) (on : Bool) :
    featureApplied s on e = epHalted s e on (if on then .stall else .idle) := by
  refine (if_neg he).trans ?_
  cases on with
  | false => exact haltReset_eq s e false .idle
  | true => exact (if_neg he : stallEp s e = _).trans (haltReset_eq s e true .stall)

/-- Settles O6: both rows apply their feature to the endpoint `epCheck` finds. -/
theorem endpointFeatureHaltsAndClears : Obligations.EndpointFeatureHaltsAndClears := by
  intro s v x l on r
  have hq : r = finishRequest 0x02 l (if inDefAddrConf s = false then fail s .s3 else if l ≠ 0 then fail s .s4
      else match epCheck s x with
        | none => fail s .s6
        | some e => if v ≠ 0 then fail s .s5 else noData (featureApplied s on e) none) := by cases on <;> rfl
  obtain ⟨hstate, hlength, htarget, hrest⟩ := endpointChecks hq
  have happly {e : EpId} (h : DefAddrConf s) (hl : l = 0) (he : EpTarget s x e) (hv : v = 0) :
      r = .next (tokensFree (noDataStage (featureApplied s on e) none)) :=
    (hrest e h hl he).trans ((finish_check_passes (not_not.2 hv)).trans (finish_noData 0x02 l _ none))
  refine ⟨hstate, hlength, htarget, fun e h hl he hv => (hrest e h hl he).trans (finish_check_fails hv),
    fun h hl he hv => ?_, fun e h0 h hl he hv => ?_⟩
  · rw [happly h hl he hv, featureApplied_ep0]
  · rw [happly h hl he hv, featureApplied_eq h0]

/-! ## SET_ADDRESS and SET_CONFIGURATION -/

/-- Settles O7: one check more than the state and the length, then a write of `pendingAddr` alone. -/
theorem setAddressPends : Obligations.SetAddressPends := by
  intro s v x l r ok
  obtain ⟨hstate, hlength, hrest⟩ := stateLengthChecks (q := r) inDefAddr_iff rfl
  refine ⟨hstate, hlength, fun h hl hv => (hrest h hl).trans (finish_check_fails hv), fun h hl hv => ?_⟩
  rw [BitVec.ofNat_toNat]
  exact (hrest h hl).trans ((finish_check_passes (Nat.not_lt.2 hv)).trans (finish_noData 0x00 l _ _))

/-- Configuration 1 builds every other endpoint and enters Configured (R329, R330). -/
theorem configure_one (s : State) :
    configure s 1 = { allRebuilt s true with dev := { s.dev with config := 1, conn := .configured } } :=
  congrArg (fun t => setDev t { t.dev with config := 1, conn := .configured }) (foldl_rebuild_eq s true)

/-- Configuration 0 in Configured tears every other endpoint down and enters Addressed (R329, R330). -/
theorem configure_zero_of_configured {s : State} (h : s.dev.conn = .configured) :
    configure s 0 = { allRebuilt s false with dev := { s.dev with config := 0, conn := .addressed } } :=
  (if_pos h).trans
    (congrArg (fun t => setDev t { t.dev with config := 0, conn := .addressed }) (foldl_rebuild_eq s false))

/-- Configuration 0 in Addressed changes nothing (R329). -/
theorem configure_zero_of_addressed {s : State} (h : s.dev.conn = .addressed) : configure s 0 = s :=
  (if_neg (by decide)).trans (if_neg (by rw [h]; decide))

/-- Settles O14: past the checks the row is `configure`, value by value. -/
theorem setConfigurationRebuilds : Obligations.SetConfigurationRebuilds := by
  intro s v x l r ok
  obtain ⟨hstate, hlength, hrest⟩ := stateLengthChecks (q := r) inAddrConf_iff rfl
  have hconfigure (h : ok) (hl : l = 0) (hv : ¬ 1 < v.toNat) :
      r = .next (tokensFree (noDataStage (configure s v) none)) :=
    (hrest h hl).trans ((finish_check_passes hv).trans (finish_noData 0x00 l _ none))
  refine ⟨hstate, hlength, fun h hl h0 h1 => (hrest h hl).trans (finish_check_fails (by bv_omega)),
    fun h hl hv => ?_, fun h hl hv => ?_, fun h hl hv => ?_⟩
  all_goals subst hv
  · rw [hconfigure h hl (by decide), configure_one]
  · rw [hconfigure (.inr h) hl (by decide), configure_zero_of_configured h]
  · rw [hconfigure (.inl h) hl (by decide), configure_zero_of_addressed h]

/-! ## GET_DESCRIPTOR -/

/-- The device descriptor has 18 bytes (R203). -/
theorem length_deviceDesc {c : Params} (h : buildOk c = true) : c.deviceDesc.length = 18 := by
  simp only [buildOk, deviceDescOk, Bool.and_eq_true, beq_iff_eq, and_assoc] at h
  obtain ⟨-, -, -, hlen, -⟩ := h
  exact hlen

/-- A block begins with its first descriptor (R202). -/
theorem splitDescs_head_isPrefix {n : Nat} {b h : List Byte} {ds : List (List Byte)}
    (hs : splitDescs n b = some (h :: ds)) : h <+: b := by
  cases b with
  | nil => simp [splitDescs] at hs
  | cons a b =>
    cases n with
    | zero => simp [splitDescs] at hs
    | succ n =>
      simp only [splitDescs] at hs
      split at hs
      · cases hs
      · split at hs
        · cases hs
        · cases hs
          exact List.take_prefix _ _

/-- A field of what a block begins with is the block's (R202). -/
theorem fld_of_isPrefix {h b : List Byte} (hp : h <+: b) {i : Nat} (hi : i < h.length) : fld b i = fld h i := by
  obtain ⟨r, rfl⟩ := hp
  rw [fld, fld, List.getElem?_append_left hi]

/-- `wTotalLength` of the configuration header is the length of the block (R202). -/
theorem wTotalLength_eq {c : Params} (h : buildOk c = true) :
    fld c.configDesc 2 + 256 * fld c.configDesc 3 = c.configDesc.length := by
  simp only [buildOk, Bool.and_eq_true] at h
  obtain ⟨-, -, -, -, hdesc, -⟩ := h
  unfold configDescOk at hdesc
  split at hdesc
  · next hd ds hs =>
    simp only [configHeaderOk, isDesc, Bool.and_eq_true, beq_iff_eq, and_assoc] at hdesc
    obtain ⟨-, hlen, htotal, -⟩ := hdesc
    have hp := splitDescs_head_isPrefix hs
    rw [fld_of_isPrefix hp (by omega), fld_of_isPrefix hp (by omega), htotal]
  · cases hdesc

/-- Settles O8: the lookup finds index 0 alone, and the build checks give the lengths. -/
theorem getDescriptorSendsRom : Obligations.GetDescriptorSendsRom := by
  intro s i x l config hok r a n
  have hq : r = finishRequest 0x80 l (if inDefAddrConf s = false then fail s .s3
      else replyDescriptor s (if i = 0 then some (.rom a n) else none)) := by
    cases config with
    | false => rw [show n = s.cfg.deviceDesc.length from (length_deviceDesc hok).symm]; rfl
    | true => rw [show n = s.cfg.configDesc.length from wTotalLength_eq hok]; rfl
  obtain ⟨hstate, hrest⟩ := stateCheck inDefAddrConf_iff hq
  refine ⟨hstate, fun h hi => ?_, fun h hi => ?_⟩
  · rw [hrest h, if_neg hi]
    exact finish_fail 0x80 l s .s5
  · rw [hrest h, if_pos hi]
    exact finish_dataIn rfl l s a n none

/-- Settles O9: the lookup's three answers; an encoded string fits the scratch buffer. -/
theorem getDescriptorStringEncodes : Obligations.GetDescriptorStringEncodes := by
  intro s i x l hok hw r b
  have hq : r = finishRequest 0x80 l (if inDefAddrConf s = false then fail s .s3
      else replyDescriptor s (if i = 0 then some (.rom s.cfg.langidAddr s.cfg.langidDesc.length)
        else if i.toNat < nstr s.cfg then some (.bytes b) else none)) := rfl
  have hfits : b.length ≤ s.cfg.ep0Mps := encodeString_length hok i.toNat
  obtain ⟨hstate, hrest⟩ := stateCheck inDefAddrConf_iff hq
  refine ⟨hstate, fun h hi => ?_, fun h hi => ?_, fun h h0 hi => ⟨hfits, ?_⟩⟩
  · have h0 : i ≠ 0 := by rintro rfl; simp [nstr] at hi
    rw [hrest h, if_neg h0, if_neg (Nat.not_lt.2 hi)]
    exact finish_fail 0x80 l s .s5
  · rw [hrest h, if_pos hi]
    exact finish_dataIn rfl l s _ _ none
  · rw [hrest h, if_neg h0, if_pos hi]
    exact finish_stored rfl l hw (store_scratch hok hfits)

/-- Settles O11: a check of the state, then a stall for every type. -/
theorem getDescriptorOtherStalls : Obligations.GetDescriptorOtherStalls := by
  intro s t i x l
  obtain ⟨hstate, hrest⟩ := stateCheck (q := exec (.getDescriptorOther t i x l) s) inDefAddrConf_iff rfl
  exact ⟨hstate, fun h => (hrest h).trans (finish_fail 0x80 l s .s5)⟩

/-! ## Requests outside the supported list -/

/-- Settles O12: the three rows fail with no check. -/
theorem unknownStandardRequestsStall : Obligations.UnknownStandardRequestsStall := by
  intro s bm q v x l
  exact ⟨finish_fail 0x00 l s .s2, finish_fail 0x82 l s .s2, finish_fail bm l s .s2⟩

end Sys2Proof.Machine
end

section
/-! PROOFS. The bus-event handlers that serve no completion (45_device_state_bus_events.md): each is its record, bit
masks evaluated (R373-R378). -/

namespace Sys2Proof.Machine

/-- Settles O29: of the slots a bus reset clears, the one armed after it is EP0's RX slot 0. -/
theorem busResetReinitialises : Obligations.BusResetReinitialises := by
  intro s
  refine ⟨_, rfl, rfl, fun e => EpBank.get_tabulate _ e, fun e d k => ?_, fun e d => ?_, rfl, rfl, ?_⟩
  · rw [armEp0Rx, armSlot, slot_setSlot]
    cases e <;> cases d <;> cases k <;> rfl
  · cases e <;> cases d <;> rfl
  · show ({ s with ownedWrite := s.ownedWrite || false } : State) = s
    rw [Bool.or_false]

/-- Settles O30: the handlers branch on the connection state alone; suspending clears two bits of `istat` at once. -/
theorem sleepAndResume : Obligations.SleepAndResume := by
  intro s g
  refine ⟨fun h => (if_pos h).trans ?_, fun h => if_neg h, fun h hg => ?_, fun h hg => ?_, fun h => if_neg h⟩
  · simp only [setDev, clearBits, enableBits, BitVec.and_assoc]
    rfl
  · subst hg
    exact if_pos h
  · subst hg
    exact if_pos h

/-- Settles O31: what an installed SOF hook emits is appended in one piece (`foldl_emit`). -/
theorem stallSofAndErrorEvents : Obligations.StallSofAndErrorEvents := by
  intro s
  refine ⟨rfl, ?_, rfl⟩
  show execEvSoftok s = _
  unfold execEvSoftok
  simp only [foldl_emit, emit_hooks, setDev_hooks]
  cases s.hooks.sof with
  | absent => rfl
  | installed =>
    simp only [emit, List.append_assoc]
    rfl

end Sys2Proof.Machine
end

section
/-! PROOFS. EV_TOKDNE (45_device_state_bus_events.md): which completion it serves and by which row, that every expected
completion is handled to its end and every other dropped, and that the queue gets shorter (R370, R372, R443). -/

namespace Sys2Proof.Machine

/-! ## Completions no rule expects -/

theorem phaseExpects_ep0Out {p : Phase} : phaseExpects .ep0 pidOut p = true ↔ p ≠ .stall := by
  cases p <;> decide

theorem phaseExpects_ep0In {p : Phase} :
    phaseExpects .ep0 pidIn p = true ↔ p = .dataIn ∨ p = .lastIn ∨ p = .statusIn := by
  cases p <;> decide

theorem phaseExpects_in {e : EpId} (he : e ≠ .ep0) {p : Phase} :
    phaseExpects e pidIn p = true ↔ p = .dataIn ∨ p = .lastIn := by
  simp [phaseExpects, he]

theorem phaseExpects_out {e : EpId} (he : e ≠ .ep0) {p : Phase} :
    phaseExpects e pidOut p = true ↔ p = .dataOut := by
  simp [phaseExpects, he, pidOut, pidIn]

/-- A completion that no endpoint of its number other than EP0 expects is dropped with F4 (R372, R443). -/
theorem not_servedEpn {s : State} {ep : BitVec 4} {d : Dir} {k : Bool} {pid : BitVec 4} {h : EpId → Res}
    (hx : ∀ e, Other s.cfg e → ep.toNat = e.num →
      ¬ (Completed s e d k pid ∧ phaseExpects e pid (s.ep.get e).phase = true)) :
    serveEpn s ep d k pid h = .next (faulted s .f4) := by
  unfold serveEpn
  cases he : endpointOf s.cfg ep.toNat with
  | none => rfl
  | some e =>
    obtain ⟨hn, hm⟩ := endpointOf_some.1 he
    by_cases h0 : e = .ep0
    · exact if_pos h0
    · exact (if_neg h0).trans (not_served (hx e ⟨h0, hm⟩ hn) _)

/-- Settles O28: a row's handler runs only on a completed slot in a phase that expects its PID. -/
theorem unexpectedCompletionsFault : Obligations.UnexpectedCompletionsFault := by
  intro s ep k f x0
  refine ⟨rfl, fun h => not_served (fun hx => h hx.1) _, fun h => not_served ?_ _, fun h => not_served ?_ _,
    fun h => not_servedEpn fun e he hn => ?_, fun h => not_servedEpn fun e he hn => ?_⟩
  · rintro ⟨hc, hp⟩
    exact h.elim (absurd hc) (phaseExpects_ep0Out.1 hp)
  · rintro ⟨hc, hp⟩
    exact h.elim (absurd hc) (absurd (phaseExpects_ep0In.1 hp))
  · rintro ⟨hc, hp⟩
    exact (h e he hn).elim (absurd hc) (absurd ((phaseExpects_in he.1).1 hp))
  · rintro ⟨hc, hp⟩
    exact (h e he hn).elim (absurd hc) (absurd ((phaseExpects_out he.1).1 hp))

/-! ## The completion served and its row -/

/-- Of a split queue the oldest completion of EP0 is taken, or with none of EP0 queued the oldest (R372). -/
theorem takeCompletion_append {q r : List Completion} {c : Completion}
    (h : if c.ep = 0 then ∀ x ∈ q, x.ep ≠ 0 else q = [] ∧ ∀ x ∈ r, x.ep ≠ 0) :
    takeCompletion (q ++ c :: r) = some (c, q ++ r) := by
  have h0 (x : Completion) : ofEp x .ep0 = true ↔ x.ep = 0 := by
    rw [ofEp, beq_iff_eq]
    exact ⟨fun hx => BitVec.eq_of_toNat_eq hx, fun hx => by rw [hx]; rfl⟩
  unfold takeCompletion
  split at h
  · next hc =>
    have hq : c ∉ q := fun hm => h c hm hc
    have hfind : (q ++ c :: r).find? (fun x => ofEp x .ep0) = some c :=
      List.find?_eq_some_iff_append.2 ⟨(h0 c).2 hc, q, r, rfl, fun x hx => by simpa using mt (h0 x).1 (h x hx)⟩
    rw [hfind]
    simp only [List.erase_append_right _ hq, List.erase_cons_head]
  · next hc =>
    obtain ⟨rfl, hr⟩ := h
    have hfind : ([] ++ c :: r).find? (fun x => ofEp x .ep0) = none := by
      simp only [List.nil_append, List.find?_eq_none, List.mem_cons, forall_eq_or_imp, h0]
      exact ⟨hc, hr⟩
    rw [hfind]
    rfl

theorem takeCompletion_none {l : List Completion} (h : takeCompletion l = none) : l = [] := by
  cases l with
  | nil => rfl
  | cons a r =>
    unfold takeCompletion at h
    split at h <;> cases h

section
variable {s t u : State} {c : Completion} {q : List Completion} {e : EpId} {d : Dir} {k : Bool} {i : Instr}

/-- A completion row means the same in the dispatcher and in the table (R372). -/
theorem execCompletion_eq (hi : i.row.format = .completion) (s : State) : execCompletion i s = exec i s := by
  cases i with
  | tokSetupEp0 | tokOutEp0 | tokInEp0 | tokOutEpn | tokInEpn | tokSetupEpn => rfl
  | _ => cases hi

theorem decodeCompletion_format {w : BitVec 12} (h : decodeCompletion w = some i) : i.row.format = .completion := by
  obtain ⟨hr, -⟩ := decodeCompletion_takes h
  exact (show ∀ r ∈ completionRows, r.format = .completion by decide) _ hr

theorem completionRow_onMap (he : e.num = c.ep.toNat) (hm : e.num < s.cfg.numEp) :
    completionRow s c = decodeCompletion (completionWord (slot s e c.dir c.odd).pid c.ep c.dir c.odd) := by
  rw [completionRow, endpointOf_some.2 ⟨he.symm, hm⟩]

theorem completionRow_offMap (h : s.cfg.numEp ≤ c.ep.toNat) : completionRow s c = none := by
  rw [completionRow, endpointOf_none.2 fun e he => he ▸ h]

/-- The completion taken runs its row on the state without it (R372). -/
theorem execEvTokdne_row (ht : takeCompletion s.sie.tokq = some (c, q)) (hr : completionRow s c = some i)
    (hi : i.row.format = .completion) : execEvTokdne s = exec i (popped s q) := by
  have hrow : completionRow (popped s q) c = some i := hr
  simp only [execEvTokdne, ht, show setSie s { s.sie with tokq := q } = popped s q from rfl, hrow,
    execCompletion_eq hi]

/-- A completion without a row is dropped with F4 (R372, R130(g)). -/
theorem execEvTokdne_noRow (ht : takeCompletion s.sie.tokq = some (c, q)) (hr : completionRow s c = none) :
    execEvTokdne s = .next (faulted (popped s q) .f4) := by
  have hrow : completionRow (popped s q) c = none := hr
  simp only [execEvTokdne, ht, show setSie s { s.sie with tokq := q } = popped s q from rfl, hrow]
  rfl

/-- Settles O32: the completion taken is the split's, and its row is its word's, or none off the map. -/
theorem tokenEventServesEp0First : Obligations.TokenEventServesEp0First := by
  intro s q r c hq hfirst u
  have ht : takeCompletion s.sie.tokq = some (c, q ++ r) := hq ▸ takeCompletion_append hfirst
  refine ⟨fun e i he hm hd => ?_, fun e he hm hd => ?_, fun hm => ?_⟩
  · exact execEvTokdne_row ht ((completionRow_onMap he hm).trans hd) (decodeCompletion_format hd)
  · exact execEvTokdne_noRow ht ((completionRow_onMap he hm).trans hd)
  · exact execEvTokdne_noRow ht (completionRow_offMap hm)

/-! ## Every handler completes -/

/-- A completion is dropped, or handled where its handler completes (R372). -/
theorem serve_goes {pid : BitVec 4} {r : Res}
    (h : Completed s e d k pid → phaseExpects e pid (s.ep.get e).phase = true → ∃ t, r = .next t) :
    ∃ t, serve s e d k pid r = .next t := by
  by_cases hx : Completed s e d k pid ∧ phaseExpects e pid (s.ep.get e).phase = true
  · obtain ⟨hc, hp⟩ := hx
    rw [served hc hp]
    exact h hc hp
  · exact ⟨_, not_served hx r⟩

theorem handleIn_goes (hok : buildOk s.cfg = true) (hp : phaseExpects e pidIn (s.ep.get e).phase = true) :
    ∃ t, handleIn s e k = .next t := by
  have hphase : (s.ep.get e).phase = .dataIn ∨ (s.ep.get e).phase = .lastIn ∨ (s.ep.get e).phase = .statusIn := by
    by_cases he : e = .ep0
    · subst he
      exact phaseExpects_ep0In.1 hp
    · exact ((phaseExpects_in he).1 hp).imp_right .inl
  rcases hphase with hp | hp | hp
  · exact ⟨_, handleIn_dataIn s e k hp⟩
  · exact ⟨_, handleIn_end hok e k _ _ hp (.inl ⟨rfl, rfl⟩)⟩
  · exact ⟨_, handleIn_end hok e k _ _ hp (.inr ⟨rfl, rfl⟩)⟩

theorem handleOut_goes (hok : buildOk s.cfg = true) : ∃ t, handleOut s e k = .next t := by
  by_cases hdone : (s.ep.get e).remaining - (slot s e .rx k).bc.setWidth 16 = 0 ∨
      (slot s e .rx k).bc.toNat < mps s.cfg e
  · exact ⟨_, handleOut_end hok hdone⟩
  · exact ⟨_, handleOut_next hdone⟩

theorem handleSetup_goes (hok : buildOk s.cfg = true) : ∃ t, handleSetup s k = .next t := by
  rw [handleSetup_eq hok]
  dsimp only
  split
  · exact ⟨_, rfl⟩
  · obtain ⟨t, ht, -⟩ := execRequest_finishes (s := setupResynced s _) hok (names_decodeSetup _).format
    exact ⟨t, ht⟩

/-- A packet of EP0's OUT data stage stalls it, or is copied where the destination can be written (R279). -/
theorem outInDataOut_goes (hok : buildOk s.cfg = true) {n : BitVec 10} (hmps : n.toNat ≤ s.cfg.ep0Mps)
    (hw : n.toNat ≤ s.ep.ep0.remaining.toNat → Writable s.cfg s.ep.ep0.ptr.toNat n.toNat) :
    ∃ t, outInDataOut s k n = .next t := by
  by_cases hleft : n.toNat ≤ s.ep.ep0.remaining.toNat
  · obtain ⟨v, -, hrun⟩ := outInDataOut_fits (k := k) hok hleft hmps (hw hleft)
    rw [hrun]
    split <;> exact ⟨_, rfl⟩
  · exact ⟨_, outInDataOut_tooLong (Nat.lt_of_not_le hleft)⟩

/-- EP0's OUT handler completes in every phase a rule enters (R278-R282; log 21). -/
theorem handleEp0Out_goes (hok : buildOk s.cfg = true) (hphase : s.ep.ep0.phase ∈ ep0Phases)
    (hmps : (slot s .ep0 .rx k).bc.toNat ≤ s.cfg.ep0Mps)
    (hw : s.ep.ep0.phase = .dataOut →
      ∀ n, n ≤ s.ep.ep0.remaining.toNat → Writable s.cfg s.ep.ep0.ptr.toNat n) :
    ∃ t, handleEp0Out s k = .next t := by
  cases hp : s.ep.ep0.phase with
  | dataOut =>
    rw [handleEp0Out_dataOut hp]
    exact outInDataOut_goes (s := ep0OutFlipped s) hok hmps (hw hp _)
  | statusOut => exact ⟨_, handleEp0Out_statusOut hp⟩
  | dataIn => exact ⟨_, handleEp0Out_dataIn (.inl hp)⟩
  | lastIn => exact ⟨_, handleEp0Out_dataIn (.inr hp)⟩
  | idle => exact ⟨_, handleEp0Out_notDue (.inl hp)⟩
  | statusIn => exact ⟨_, handleEp0Out_notDue (.inr hp)⟩
  | stall =>
    unfold handleEp0Out
    rw [hp]
    exact ⟨_, rfl⟩
  | throttle | complete =>
    rw [hp] at hphase
    exact absurd hphase (by decide)

/-- EV_TOKDNE completes (R370, R372). -/
theorem execEvTokdne_goes (hok : buildOk s.cfg = true) (hphase : s.ep.ep0.phase ∈ ep0Phases)
    (hmps : (slot s .ep0 .rx s.ep.ep0.odd.rx).bc.toNat ≤ s.cfg.ep0Mps)
    (hw : s.ep.ep0.phase = .dataOut →
      ∀ n, n ≤ s.ep.ep0.remaining.toNat → Writable s.cfg s.ep.ep0.ptr.toNat n) :
    ∃ t, execEvTokdne s = .next t := by
  cases ht : takeCompletion s.sie.tokq with
  | none => exact ⟨s, by simp only [execEvTokdne, ht]⟩
  | some p =>
    obtain ⟨c, q⟩ := p
    cases he : endpointOf s.cfg c.ep.toNat with
    | none => exact ⟨_, execEvTokdne_noRow ht (by rw [completionRow, he])⟩
    | some e =>
      rw [execEvTokdne_some ht he]
      split
      · split
        · exact serve_goes fun _ _ => handleSetup_goes hok
        · exact ⟨_, rfl⟩
      · split
        · refine serve_goes fun hc _ => ?_
          unfold outHandler
          split
          · next h0 =>
            subst h0
            obtain ⟨-, hk, -⟩ := hc
            exact handleEp0Out_goes (s := popped s q) hok hphase (hk ▸ hmps) hw
          · exact handleOut_goes hok
        · split
          · exact serve_goes fun _ hp => handleIn_goes hok hp
          · exact ⟨_, rfl⟩

/-! ## The queue gets shorter -/

/-- A callback leaves the SIE as it is (R237). -/
theorem callbackRan_sie (s : State) (e : EpId) (cb : Option Callback) : (callbackRan s e cb).sie = s.sie := by
  cases cb with
  | none => rfl
  | some x =>
    cases x with
    | commitAddress | client | vendor => rfl
    | applyLineCoding => simp only [callbackRan]; split <;> rfl

/-- A request queues nothing. -/
theorem Request.queue {cb : Option Callback} (h : Request s t cb) : t.sie.tokq.Sublist s.sie.tokq := by
  cases h with
  | calm hc => rw [hc.tokq]
  | address hc => rw [hc.tokq]
  | halt | configure | deconfigure => exact List.filter_sublist

/-- Serving a completion queues nothing. -/
theorem Served.queue (h : Served u e d k t) : t.sie.tokq.Sublist u.sie.tokq := by
  cases h with
  | inNext | outNext | outStatus => exact .refl _
  | inEnd | outEnd => rw [finished, callbackRan_sie]
  | outStall | outEarly => exact List.filter_sublist
  | @outData _ v _ _ hc => exact hc.tokq ▸ List.Sublist.refl v.sie.tokq
  | @outDataEnd _ v _ _ hc => rw [callbackRan_sie]; exact hc.tokq ▸ List.Sublist.refl v.sie.tokq
  | setup _ hr hs => exact hs.queue.trans hr.queue

/-- EV_TOKDNE takes the completion it serves out of the queue (R372). -/
theorem execEvTokdne_consumes (hok : buildOk s.cfg = true) (hq : s.sie.tokq ≠ []) (h : execEvTokdne s = .next t) :
    t.sie.tokq.length < s.sie.tokq.length := by
  cases ht : takeCompletion s.sie.tokq with
  | none => exact absurd (takeCompletion_none ht) hq
  | some p =>
    obtain ⟨c, q⟩ := p
    obtain ⟨as, bs, hs, rfl, -⟩ := takeCompletion_split ht
    have hpop : (as ++ bs).length < s.sie.tokq.length := by
      rw [hs]
      simp only [List.length_append, List.length_cons]
      omega
    rcases execEvTokdne_cases hok ht h with ⟨e, -, -, hserved⟩ | ⟨-, rfl⟩
    · exact Nat.lt_of_le_of_lt hserved.queue.length_le hpop
    · exact hpop

/-- Settles O33: every handler completes, EP0's OUT data stage because its destination can be written. -/
theorem tokenEventCompletes : Obligations.TokenEventCompletes := by
  intro s hok _ hphase hmps hw
  obtain ⟨t, ht⟩ := execEvTokdne_goes hok hphase hmps hw
  exact ⟨t, ht, fun hq => execEvTokdne_consumes hok hq ht⟩

end

end Sys2Proof.Machine
end

section
/-! PROOFS. The moves of the connection state (45_device_state_bus_events.md): no line but the dispatcher's writes it,
and of the events only bus reset, resume, sleep and a token completion do, each along an edge of R379. -/

namespace Sys2Proof.Machine

/-! ## Results by the device registers they leave -/

/-- Wherever the result goes on, it leaves device registers in `P`. -/
def Leaves (P : DeviceState → Prop) (r : Res) : Prop := ∀ t, r = .next t → P t.dev

section
variable {P : DeviceState → Prop} {s : State}

theorem leaves_next {t : State} (h : P t.dev) : Leaves P (.next t) := by rintro _ ⟨⟩; exact h

theorem leaves_refused (x : Refusal) : Leaves P (.refused x) := by rintro _ ⟨⟩

theorem Leaves.ite {p : Prop} [Decidable p] {a b : Res} (ha : p → Leaves P a) (hb : ¬ p → Leaves P b) :
    Leaves P (if p then a else b) := by
  split
  · exact ha ‹_›
  · exact hb ‹_›

/-- A load, then a part that leaves such registers whatever was read. -/
theorem leaves_load {a : Addr} {n : Nat} {f : List Byte → Res} (hf : ∀ b, Leaves P (f b)) :
    Leaves P (andThen (load s a n) f) := by
  intro t ht
  obtain ⟨b, -, ht⟩ := andThen_next.1 ht
  exact hf b t ht

/-- A store, then a part that leaves such registers from memory as it may be. -/
theorem leaves_store {a : Addr} {bs : List Byte} {f : State → Res} (hf : ∀ m, Leaves P (f { s with mem := m })) :
    Leaves P (andThen (store s a bs) f) := by
  intro t ht
  obtain ⟨v, hv, ht⟩ := andThen_next.1 ht
  rw [(store_next hv).1] at ht
  exact hf v.mem t ht

end

/-! ## The other agents' lines -/

section
variable {s : State}

/-- A start leaves the registers whether it is lost, refused or begun (R233, R234, R244). -/
theorem leaves_started {P : DeviceState → Prop} {d : Dir} {buf : Addr} {len : BitVec 16}
    {lost : FaultReason → State} {begun : EpId → State} (hl : ∀ r, P (lost r).dev) (hb : ∀ i, P (begun i).dev)
    (x : Except FaultReason EpId) :
    Leaves P (started s d buf len lost begun x) := by
  cases x with
  | error r => exact leaves_next (hl r)
  | ok i => exact .ite (fun _ => leaves_next (hb i)) fun _ => leaves_refused _

theorem leaves_execStartTx (e : BitVec 8) (len : BitVec 16) (buf : Addr) :
    Leaves (DevSame s.dev) (execStartTx e len buf s) := by
  rw [execStartTx_eq]
  exact leaves_started (fun _ => .refl _) (fun _ => .refl _) _

theorem leaves_execNotify (s : State) (v : BitVec 16) : Leaves (DevSame s.dev) (execNotify v s) := by
  unfold execNotify
  cases epNotify s.cfg with
  | none => exact leaves_next (.refl _)
  | some e =>
    exact .ite (fun _ => leaves_next (.refl _)) fun _ => .ite (fun _ => leaves_next (.refl _)) fun _ =>
      leaves_store fun m => leaves_execStartTx (s := { s with mem := m }) _ _ _

theorem leaves_execStartRx (e : BitVec 8) (len : BitVec 16) (buf : Addr) :
    Leaves (DevSame s.dev) (execStartRx e len buf s) := by
  rw [execStartRx_eq]
  exact leaves_started (fun _ => .refl _) (fun _ => .refl _) _

theorem leaves_execSendData (buf : Addr) (len : BitVec 16) : Leaves (DevSame s.dev) (execSendData buf len s) := by
  rw [execSendData_eq]
  exact leaves_started (fun _ => .refl _) (fun _ => .refl _) _

theorem leaves_execReceiveData (buf : Addr) (len : BitVec 16) :
    Leaves (DevSame s.dev) (execReceiveData buf len s) := by
  rw [execReceiveData_eq]
  exact leaves_started (fun _ => .refl _) (fun _ => .refl _) _

/-- A command on the endpoint it names, or lost (R240-R242). -/
theorem leaves_named {P : DeviceState → Prop} {e : BitVec 8} {f : EpId → State} (hn : P s.dev)
    (hf : ∀ i, P (f i).dev) :
    Leaves P (match clientEp s e with
      | none => .next (raiseFault s .f2)
      | some i => .next (f i)) := by
  cases clientEp s e with
  | none => exact leaves_next hn
  | some i => exact leaves_next (hf i)

/-- Every client command (R133). -/
theorem leaves_runClient (word : List Byte) : Leaves (DevSame s.dev) (runClient word s) := by
  have same : DevSame s.dev s.dev := .refl _
  unfold runClient decode
  cases hd : decodeCmd word with
  | none => exact leaves_refused _
  | some i =>
    unfold decodeCmd at hd
    repeat' split at hd
    all_goals cases hd
    · exact leaves_next same
    · exact leaves_named (f := stallEp s) same fun i => by rw [stallEp_dev]; exact same
    · exact leaves_named same fun _ => same
    · exact leaves_execNotify s _
    · exact leaves_named same fun _ => same
    · exact leaves_execSendData _ _
    · exact leaves_execReceiveData _ _
    · exact leaves_execStartTx _ _ _
    · exact leaves_execStartRx _ _ _

theorem leaves_overrun (x : Slot) : Leaves (DevSame s.dev) (overrun s x) :=
  leaves_store fun _ => leaves_next ⟨rfl, rfl, rfl, rfl, rfl⟩

theorem leaves_hostSetup (a : BitVec 7) (e : BitVec 4) (data : List Byte) :
    Leaves (DevSame s.dev) (hostSetup a e data s) := by
  have ignored : Leaves (DevSame s.dev) (.next (answer s .none)) := leaves_next (.refl _)
  exact .ite (fun _ => ignored) fun _ => .ite (fun _ => ignored) fun _ => .ite (fun _ => ignored) fun _ =>
    .ite (fun _ => leaves_overrun _) fun _ => leaves_store fun _ => leaves_next (.refl _)

theorem leaves_hostOut (a : BitVec 7) (e : BitVec 4) (p : Bool) (data : List Byte) :
    Leaves (DevSame s.dev) (hostOut a e p data s) := by
  have answered (x : Answer) : Leaves (DevSame s.dev) (.next (answer s x)) := leaves_next (.refl _)
  unfold hostOut
  cases tokenTo s a e with
  | none => exact answered _
  | some i =>
    refine .ite (fun _ => ?_) fun _ => answered _
    exact .ite (fun _ => leaves_next (calm_sieStall s).dev) fun _ => .ite (fun _ => answered _) fun _ =>
      .ite (fun _ => leaves_overrun _) fun _ => .ite (fun _ => answered _) fun _ =>
        leaves_store fun _ => leaves_next (.refl _)

theorem leaves_hostIn (a : BitVec 7) (e : BitVec 4) (ack : Bool) : Leaves (DevSame s.dev) (hostIn a e ack s) := by
  have answered (x : Answer) : Leaves (DevSame s.dev) (.next (answer s x)) := leaves_next (.refl _)
  unfold hostIn
  cases tokenTo s a e with
  | none => exact answered _
  | some i =>
    refine .ite (fun _ => ?_) fun _ => answered _
    refine .ite (fun _ => leaves_next (calm_sieStall s).dev) fun _ => .ite (fun _ => answered _) fun _ =>
      leaves_load fun b => leaves_next ?_
    split <;> exact .refl _

/-- Every line but INIT and the dispatcher's (R135). -/
theorem leaves_runLine {l : Line} (hi : l ≠ .init) (hd : ∀ g, l ≠ .dispatch g) :
    Leaves (DevSame s.dev) (runLine l s) := by
  cases l with
  | init => exact absurd rfl hi
  | dispatch g => exact absurd rfl (hd g)
  | hReset | hSof | hIdle | hResume => exact leaves_next ⟨rfl, rfl, rfl, rfl, rfl⟩
  | hSetup a e data => exact leaves_hostSetup a e data
  | hOut a e p data => exact leaves_hostOut a e p data
  | hIn a e ack => exact leaves_hostIn a e ack
  | hError x => exact .ite (fun _ => leaves_refused _) fun _ => leaves_next ⟨rfl, rfl, rfl, rfl, rfl⟩
  | client word => exact leaves_runClient word
  | backend v => exact leaves_execNotify { s with backend := { s.backend with lineState := v } } v
  | memWrite a data => exact fun t ht => (calm_store ht).dev

end

/-! ## Edges -/

/-- The connection state moves along an edge of R379 that is no bus reset: neither out of Attached nor from Suspended
to Default. -/
def Edge (d d' : DeviceState) : Prop :=
  ConnMove d d' ∧ (d'.conn ≠ d.conn → ¬ (d.conn = .attached ∨ d.conn = .suspended ∧ d'.conn = .default))

/-- What R36 says of the registers in Default and Addressed. -/
structure Unconfigured (d : DeviceState) : Prop where
  addr : d.conn = .default → d.addr = 0
  config : d.conn = .default ∨ d.conn = .addressed → d.config = 0

theorem DevInv.unconfigured {s : State} (h : DevInv s) : Unconfigured s.dev where
  addr := h.default
  config hc := by
    refine h.config01.resolve_right fun h1 => ?_
    have := h.config.1 h1
    rcases hc with hc | hc <;> simp [hc] at this

theorem DevInv.congr {s t : State} (h : DevInv s) (hd : t.dev = s.dev) (he : t.ep = s.ep) : DevInv t := by
  obtain ⟨config, config01, default, addressed, active, commit0, commitN⟩ := h
  rw [← hd] at config config01 default addressed active commit0
  rw [← he] at commit0 commitN
  exact ⟨config, config01, default, addressed, active, commit0, commitN⟩

/-- The connection state stays as it is. -/
theorem connMove_of_conn_eq {d d' : DeviceState} (hc : d'.conn = d.conn)
    (h : d.conn = .default → d'.addr = 0 ∧ d'.config = 0) : ConnMove d d' := by
  unfold ConnMove
  rw [hc]
  cases hd : d.conn with
  | default => exact h hd
  | attached | addressed | configured | suspended => rfl

section
variable {s t u : State} {e : EpId} {k : Bool}

theorem edge_of_conn_eq {d d' : DeviceState} (hc : d'.conn = d.conn)
    (h : d.conn = .default → d'.addr = 0 ∧ d'.config = 0) : Edge d d' :=
  ⟨connMove_of_conn_eq hc h, fun hne => absurd hc hne⟩

theorem edge_of_devSame {d d' : DeviceState} (hd : Unconfigured d) (h : DevSame d d') : Edge d d' :=
  edge_of_conn_eq h.conn fun hc => ⟨h.addr.trans (hd.addr hc), h.config.trans (hd.config (.inl hc))⟩

/-- The address commit goes between Default and Addressed, by the address it commits (R322). -/
theorem edge_commit (hd : Unconfigured s.dev) (hm : MayCommit s) (e : EpId) :
    Edge s.dev (callbackRan s e (some .commitAddress)).dev := by
  have hconfig : (callbackRan s e (some .commitAddress)).dev.config = 0 := hd.config hm
  have hfrom : ¬ (s.dev.conn = .attached ∨ s.dev.conn = .suspended ∧
      (callbackRan s e (some .commitAddress)).dev.conn = .default) := by
    rcases hm with hm | hm <;> simp [hm]
  refine ⟨?_, fun _ => hfrom⟩
  rcases hm, commitRan_conn hm e with ⟨hm | hm, ⟨hc, ha⟩ | ⟨hc, ha⟩⟩
  · exact connMove_of_conn_eq (hc.trans hm.symm) fun _ => ⟨ha, hconfig⟩
  · simp only [ConnMove, hm, hc]; exact ⟨rfl, ha, hconfig⟩
  · simp only [ConnMove, hm, hc]; exact ⟨ha, hconfig⟩
  · exact connMove_of_conn_eq (hc.trans hm.symm) fun hx => absurd (hm.symm.trans hx) (by decide)

/-- SET_CONFIGURATION goes between Addressed and Configured (R329). -/
theorem Request.edge {cb : Option Callback} (hd : Unconfigured s.dev) (h : Request s t cb) : Edge s.dev t.dev := by
  cases h with
  | calm hc => exact edge_of_devSame hd hc.dev
  | address hc => exact edge_of_devSame hd hc.dev
  | halt => exact edge_of_devSame hd (.refl _)
  | configure hs =>
    rcases hs with hs | hs
    · exact ⟨by simp only [ConnMove, hs]; exact ⟨rfl, rfl⟩, by simp [hs]⟩
    · exact edge_of_conn_eq hs.symm fun hx => absurd (hs.symm.trans hx) (by decide)
  | deconfigure hs => exact ⟨by simp only [ConnMove, hs]; exact ⟨rfl, rfl⟩, by simp [hs]⟩

theorem Stage.dev {cb : Option Callback} (h : Stage s cb t) : t.dev = s.dev := by cases h <;> rfl

/-! ## Completions -/

/-- A callback taken out and run, an address commit only where it may be (R237). -/
theorem edge_finished (hd : Unconfigured s.dev) {x : EndpointState}
    (hm : x.callback = some .commitAddress → MayCommit s) : Edge s.dev (finished s e x).dev := by
  by_cases hx : x.callback = some .commitAddress
  · rw [finished, hx]
    exact edge_commit (s := { s with ep := s.ep.set e { x with callback := none } }) hd (hm hx) e
  · exact edge_of_devSame hd (callbackRan_calm { s with ep := s.ep.set e { x with callback := none } } e hx).dev

theorem leaves_devSame (hi : DevInv s) (h : DevSame s.dev t.dev) : Leaves (Edge s.dev) (.next t) :=
  leaves_next (edge_of_devSame hi.unconfigured h)

theorem leaves_same (hi : DevInv s) (h : t.dev = s.dev) : Leaves (Edge s.dev) (.next t) :=
  leaves_devSame hi (h ▸ .refl _)

/-- A callback fired where the registers and the callbacks are those of `s` (R237). -/
theorem leaves_fireCallback (hi : DevInv s) (hok : buildOk u.cfg = true) (hdev : u.dev = s.dev)
    (hcb : (u.ep.get e).callback = (s.ep.get e).callback) : Leaves (Edge s.dev) (fireCallback u e) := by
  have hm (hx : (u.ep.get e).callback = some .commitAddress) : MayCommit u := by
    rw [MayCommit, hdev]
    by_cases he : e = .ep0
    · subst he
      exact hi.commit0 (hcb ▸ hx)
    · exact absurd (hcb ▸ hx) (hi.commitN e he)
  rw [fire_eq hok, ← hdev]
  exact leaves_next (edge_finished (hdev ▸ hi.unconfigured) hm)

/-- EP0's OUT data stage, whose last packet fires the callback (R279). -/
theorem leaves_outInDataOut (hi : DevInv s) (hok : buildOk u.cfg = true) (hdev : u.dev = s.dev)
    (hcb : u.ep.ep0.callback = s.ep.ep0.callback) (n : BitVec 10) : Leaves (Edge s.dev) (outInDataOut u k n) := by
  have stalled : Leaves (Edge s.dev) (.next (raiseStall u .s9)) := leaves_same hi ((raiseStall_dev u _).trans hdev)
  exact .ite (fun _ => stalled) fun _ => leaves_load fun b => leaves_store fun m =>
    .ite (fun _ => leaves_fireCallback hi hok hdev hcb) fun _ => leaves_same hi hdev

variable (hi : DevInv s) (hok : buildOk s.cfg = true)
include hi hok

theorem leaves_handleIn : Leaves (Edge s.dev) (handleIn s e k) := by
  unfold handleIn
  simp only [advance, flipDir]
  cases (s.ep.get e).phase with
  | lastIn | statusIn => exact leaves_fireCallback hi hok rfl (by simp [setPhase])
  | dataIn | idle | dataOut | statusOut | throttle | stall | complete => exact leaves_same hi (by simp)

theorem leaves_handleOut : Leaves (Edge s.dev) (handleOut s e k) := by
  refine .ite (fun _ => leaves_fireCallback hi hok rfl ?_) fun _ => leaves_same hi rfl
  simp [setPhase, advance, flipDir]

theorem leaves_handleEp0Out : Leaves (Edge s.dev) (handleEp0Out s k) := by
  unfold handleEp0Out
  cases s.ep.ep0.phase with
  | dataOut => exact leaves_outInDataOut (u := setEp s .ep0 (flipDir s.ep.ep0 .rx)) hi hok rfl rfl _
  | statusOut => exact leaves_same hi (by unfold outInStatusOut; split <;> simp)
  | dataIn | lastIn => exact leaves_same hi (by unfold outInDataIn; split <;> simp)
  | idle | statusIn | stall => exact leaves_same hi (by simp)
  | throttle | complete => exact leaves_refused _

/-- The SETUP handler moves the connection state as its request does (R272). -/
theorem leaves_handleSetup : Leaves (Edge s.dev) (handleSetup s k) := by
  rw [handleSetup_eq hok]
  refine .ite (fun _ => leaves_same hi rfl) fun _ t ht => ?_
  obtain ⟨v, cb, w, hr, hs, rfl⟩ := execRequest_cases (s := setupResynced s _) hok ht
  show Edge s.dev w.dev
  rw [hs.dev]
  exact Request.edge (s := setupResynced s _) hi.unconfigured hr

/-- EV_TOKDNE moves the connection state as the handler of the completion does (R372). -/
theorem leaves_execEvTokdne : Leaves (Edge s.dev) (execEvTokdne s) := by
  cases ht : takeCompletion s.sie.tokq with
  | none => simp only [execEvTokdne, ht]; exact leaves_same hi rfl
  | some p =>
    obtain ⟨c, q⟩ := p
    have hp : DevInv (popped s q) := hi.congr rfl rfl
    cases he : endpointOf s.cfg c.ep.toNat with
    | none => rw [execEvTokdne_noRow ht (by rw [completionRow, he])]; exact leaves_same hi rfl
    | some e =>
      have kept {r : Res} {d : Dir} {pid : BitVec 4} (hr : Leaves (Edge s.dev) r) :
          Leaves (Edge s.dev) (serve (popped s q) e d c.odd pid r) := .ite (fun _ => hr) fun _ => leaves_same hi rfl
      rw [execEvTokdne_some ht he]
      refine .ite (fun _ => .ite (fun h0 => ?_) fun _ => leaves_same hi rfl) fun _ => .ite (fun _ => kept ?_) fun _ =>
        .ite (fun _ => kept (leaves_handleIn hp hok)) fun _ => leaves_same hi rfl
      · subst h0
        exact kept (leaves_handleSetup hp hok)
      · exact .ite (fun _ => leaves_handleEp0Out hp hok) fun _ => leaves_handleOut hp hok

end

/-! ## Events -/

/-- What a dispatcher step does to the registers: a bus reset that was pending, or an edge of R379 that is none. -/
def Dispatched (s : State) (d : DeviceState) : Prop :=
  ConnMove s.dev d ∧ (pending s).getLsbD 0 = true ∨ Edge s.dev d

/-- A bus reset goes to Default from every state (R373). -/
theorem connMove_busReset (c : Params) (d : DeviceState) : ConnMove d (busResetDev c d) := by
  unfold ConnMove
  cases d.conn <;> exact ⟨rfl, rfl⟩

section
variable {s : State} (hi : DevInv s)
include hi

/-- Resuming goes from Suspended to Configured (R374). -/
theorem leaves_execEvResume (g : Bool) : Leaves (Edge s.dev) (execEvResume g s) := by
  refine .ite (fun hc => .ite (fun _ => leaves_next ?_) fun _ => leaves_devSame hi ⟨rfl, rfl, rfl, rfl, rfl⟩)
    fun _ => leaves_devSame hi ⟨rfl, rfl, rfl, rfl, rfl⟩
  have hc : s.dev.conn = .suspended := hc
  refine ⟨?_, by simp [hc, setDev, disableBits]⟩
  simp only [ConnMove, hc]
  exact ⟨rfl, by simp [setDev, disableBits, clearBits, bitResume], rfl⟩

/-- Going to sleep goes from Configured to Suspended (R377). -/
theorem leaves_execEvSleep : Leaves (Edge s.dev) (execEvSleep s) := by
  refine .ite (fun hc => leaves_next ?_) fun _ => leaves_devSame hi ⟨rfl, rfl, rfl, rfl, rfl⟩
  have hc : s.dev.conn = .configured := hc
  refine ⟨?_, by simp [hc]⟩
  simp only [ConnMove, hc]
  exact ⟨rfl, by simp [setDev, enableBits, clearBits, bitResume], rfl⟩

theorem leaves_execEvSoftok : Leaves (Edge s.dev) (execEvSoftok s) := by
  obtain ⟨-, hsof, -⟩ := stallSofAndErrorEvents s
  rw [show execEvSoftok s = _ from hsof]
  exact leaves_devSame hi ⟨rfl, rfl, rfl, rfl, rfl⟩

/-- A dispatcher step moves the connection state as the event it serves does (R371). -/
theorem leaves_runDispatch (hok : buildOk s.cfg = true) (g : Bool) : Leaves (Dispatched s) (runDispatch g s) := by
  have edge {r : Res} (h : Leaves (Edge s.dev) r) : Leaves (Dispatched s) r := fun t ht => .inr (h t ht)
  unfold runDispatch
  cases hd : decodeEvent (pending s) g with
  | none => exact edge (leaves_same hi rfl)
  | some i =>
    unfold decodeEvent at hd
    repeat' split at hd
    all_goals cases hd
    · exact leaves_next (.inl ⟨connMove_busReset s.cfg s.dev, ‹_›⟩)
    · exact edge (leaves_execEvTokdne hi hok)
    · exact edge (leaves_execEvResume hi g)
    · exact edge (leaves_devSame hi ⟨rfl, rfl, rfl, rfl, rfl⟩)
    · exact edge (leaves_execEvSoftok hi)
    · exact edge (leaves_execEvSleep hi)
    · exact edge (leaves_devSame hi ⟨rfl, rfl, rfl, rfl, rfl⟩)

end

/-! ## The step -/

/-- Every step but INIT: the dispatcher's, or one that keeps the registers R379 speaks of (R135). -/
theorem step_dispatched {s t : State} (hi : DevInv s) (h : step s = .next t) (hinit : nextLine s ≠ some .init) :
    Dispatched s t.dev := by
  obtain ⟨hok, -⟩ := step_cases h
  obtain ⟨u, hu, rfl⟩ := step_wakes h
  rw [wakeClient_dev]
  have kept (h : DevSame s.dev u.dev) : Dispatched s u.dev := .inr (edge_of_devSame hi.unconfigured h)
  unfold runNext at hu
  cases hl : takeLine s s.lines with
  | none =>
    rw [hl] at hu
    dsimp only at hu
    split at hu
    · exact leaves_runDispatch (s := { s with draws := s.draws + 1 }) (hi.congr rfl rfl) hok _ u hu
    · cases hu
      exact kept (.refl _)
  | some p =>
    obtain ⟨l, rest⟩ := p
    have hnext : nextLine s = some l := by simp [nextLine, hl]
    rw [hl] at hu
    by_cases hd : ∃ g, l = .dispatch g
    · obtain ⟨g, rfl⟩ := hd
      exact leaves_runDispatch (s := { s with lines := rest }) (hi.congr rfl rfl) hok g u hu
    · exact kept (leaves_runLine (s := { s with lines := rest }) (fun hx => hinit (hx ▸ hnext))
        (fun g hg => hd ⟨g, hg⟩) u hu)

/-- Settles O56: the lines of the other agents keep the registers R379 speaks of, and the dispatcher's events follow its
edges, leaving Attached, and Suspended for Default, by a bus reset only. -/
theorem connectionMoves : Obligations.ConnectionMoves := by
  intro s t hi h hinit
  rcases step_dispatched hi h hinit with ⟨hm, hp⟩ | ⟨hm, hn⟩
  · exact ⟨hm, fun _ _ => hp⟩
  · exact ⟨hm, fun hne hx => absurd hx (hn hne)⟩

end Sys2Proof.Machine
end

section
/-! PROOFS. The class extension layer (46_class_cdc.md): the checks of the CDC hook in their order, said once for its
four rows (R410, R411), each request's reply or effect behind them, the vendor hook's answer put into effect (R410,
R417), and the SERIAL_STATE notification (R418). -/

namespace Sys2Proof.Machine

/-! ## Checks in their order -/

/-- A request of the CDC hook: its checks, then the rest `r` (R411). -/
def cdcChecked (s : State) (lenOk : Bool) (x : BitVec 16) (r : ReqRes) : ReqRes :=
  match cdcCheck s lenOk x with
  | some c => fail s c
  | none => r

section
variable {s : State} {x l : BitVec 16} {bm : Byte} {lenOk : Bool} {r : ReqRes}

/-- The checks of a CDC row that fails one: a hook, Configured, the length, the CDC interface (R410, R411). -/
theorem cdcChecks_fail {bad : Prop} {q : Res} (hl : lenOk = false ↔ bad)
    (hq : q = finishRequest bm l (cdcChecked s lenOk x r)) :
    (s.hooks.setup = .absent → q = .next (stalledRequest s .s7)) ∧
      (s.hooks.setup = .cdc → s.dev.conn ≠ .configured → q = .next (stalledRequest s .s3)) ∧
      (s.hooks.setup = .cdc → s.dev.conn = .configured → bad → q = .next (stalledRequest s .s4)) ∧
      (s.hooks.setup = .cdc → s.dev.conn = .configured → ¬ bad → x.toNat % 256 ≠ s.cfg.ifCdcComm.toNat →
        q = .next (stalledRequest s .s6)) := by
  have fails {c : StallCause} (hc : cdcCheck s lenOk x = some c) : q = .next (stalledRequest s c) := by
    rw [hq, cdcChecked, hc]
    exact finish_fail bm l s c
  have installed (h : s.hooks.setup = .cdc) : s.hooks.setup ≠ .absent := by rw [h]; decide
  have state (hc : s.dev.conn = .configured) : ¬ inConf s = false := not_not.2 hc ∘ inConf_false.1
  refine ⟨fun h => fails (if_pos h), fun h hc => fails ?_, fun h hc hb => fails ?_, fun h hc hb hx => fails ?_⟩
  · rw [cdcCheck, if_neg (installed h), if_pos (inConf_false.2 hc)]
  · rw [cdcCheck, if_neg (installed h), if_neg (state hc), if_pos (hl.2 hb)]
  · rw [cdcCheck, if_neg (installed h), if_neg (state hc), if_neg (mt hl.1 hb),
      if_pos (Bool.eq_false_iff.2 (mt cdcTargetOk_iff.1 hx))]

/-- A CDC row that passes every check goes on with the rest of its request (R411). -/
theorem cdcChecks_pass (h : s.hooks.setup = .cdc) (hc : s.dev.conn = .configured) (hl : lenOk = true)
    (hx : x.toNat % 256 = s.cfg.ifCdcComm.toNat) :
    finishRequest bm l (cdcChecked s lenOk x r) = finishRequest bm l r := by
  have hnone : cdcCheck s lenOk x = none := by simp [cdcCheck, h, inConf_iff.2 hc, hl, cdcTargetOk_iff.2 hx]
  rw [cdcChecked, hnone]

end

/-- Settles O16: the four rows are the hook's checks, with the length each row asks for. -/
theorem cdcChecksInOrder : Obligations.CdcChecksInOrder := by
  intro s v x l k r badLen
  have hrow : ∃ bm lenOk q, r = finishRequest bm l (cdcChecked s lenOk x q) ∧ (lenOk = false ↔ badLen) := by
    subst r badLen
    match k with
    | 0 => exact ⟨0x21, l == 7, _, rfl, by simp⟩
    | 1 => exact ⟨0xA1, true, _, rfl, by simp⟩
    | 2 => exact ⟨0x21, l == 0, _, rfl, by simp⟩
    | 3 => exact ⟨0x21, l == 0, _, rfl, by simp⟩
  obtain ⟨bm, lenOk, q, hr, hl⟩ := hrow
  exact cdcChecks_fail hl hr

/-! ## The requests of the CDC hook -/

/-- Settles O17: past the checks the row is a DataOut outcome, with a length that is not 0. -/
theorem cdcSetLineCodingStartsData : Obligations.CdcSetLineCodingStartsData := by
  intro s v x h hc hx
  have hdata := finish_dataOut (bm := 0x21) rfl 7 s s.cfg.lcAddr (some .applyLineCoding)
  exact (cdcChecks_pass h hc rfl hx).trans hdata

/-- Settles O18: past the checks the row stores the coding's 7 bytes after the backend call, which leaves memory. -/
theorem cdcGetLineCodingReplies : Obligations.CdcGetLineCodingReplies := by
  intro s v x l hok hw h hc hx
  obtain ⟨t, ht, hbut, hstored⟩ := finish_stored (bm := 0xA1) (s := backendCall s .getLineCoding) rfl l hw
    (store_lc (s := backendCall s .getLineCoding) (bs := lineCodingBytes s.backend.lc) (by exact hok) (Nat.le_refl 7))
  exact ⟨t, (cdcChecks_pass h hc rfl hx).trans ht, hbut, hstored⟩

/-- The line-state bits of wValue (R415). -/
theorem lineStateBits_eq (v : BitVec 16) : v.extractLsb' 0 2 = BitVec.ofNat 2 (v.toNat % 4) := by
  apply BitVec.eq_of_toNat_eq
  simp [BitVec.extractLsb'_toNat]

/-- Settles O19: past the checks both rows are a backend call and a NoData outcome. -/
theorem cdcLineStateAndBreakReachBackend : Obligations.CdcLineStateAndBreakReachBackend := by
  intro s v x h hc hx
  rw [← lineStateBits_eq]
  exact ⟨(cdcChecks_pass h hc rfl hx).trans (finish_noData 0x21 0 _ none),
    (cdcChecks_pass h hc rfl hx).trans (finish_noData 0x21 0 _ none)⟩

/-! ## The vendor hook -/

/-- With no setup hook, or no vendor hook, a vendor request stalls with S7 (R410, R417). -/
theorem execVendorRequest_unhooked {s : State} (h : s.hooks.setup = .absent ∨ s.cfg.vendorHook = none)
    (bm q : BitVec 8) (v x l : BitVec 16) :
    execVendorRequest bm q v x l s = .next (stalledRequest s .s7) := by
  unfold execVendorRequest
  rcases h with h | h
  · exact finish_check_fails h
  · simp only [h, ite_self, finish_fail]

/-- With both installed it is the vendor hook's answer put into effect (R410). -/
theorem execVendorRequest_hooked {s : State} {rows : List HookRow} (h : s.hooks.setup = .cdc)
    (hr : s.cfg.vendorHook = some rows) (bm q : BitVec 8) (v x l : BitVec 16) :
    execVendorRequest bm q v x l s =
      finishRequest bm l (runHookReply s bm (vendorReply rows ⟨bm, q, v, x, l⟩ (devView s))) := by
  simp [execVendorRequest, h, hr]

/-- Settles O20: the two fallback rows fail with no check, and so does a vendor request with nothing to answer it. -/
theorem unhandledClassRequestsStall : Obligations.UnhandledClassRequestsStall := by
  intro s bm q v x l
  exact ⟨finish_fail bm l s .s7, finish_fail bm l s .s7, fun h => execVendorRequest_unhooked h bm q v x l⟩

/-- The result goes on to `y`, but for memory, where the staging writes of the hook's answer stand (R410(b)). -/
def HookTakesEffect (s : State) (h : HookReply) (r : Res) (y : State) : Prop :=
  ∃ t, r = .next t ∧ { t with mem := s.mem } = y ∧
    (∀ i : Fin 7, peek t (s.cfg.lcAddr.toNat + i) =
      (lastWrite h.staging i).getD (peek s (s.cfg.lcAddr.toNat + i))) ∧
    ∀ a, ¬ InRange a s.cfg.lcAddr.toNat 7 → peek t a = peek s a

section
variable {s : State} {bm : Byte} {l : BitVec 16} {h : HookReply}

/-- A contradicting answer stalls with S7 and nothing of it takes effect (R274, R275, R501; log 38). -/
theorem finish_hook_contradicting (hc : contradicts bm h.outcome = true) :
    finishRequest bm l (runHookReply s bm h) = .next (stalledRequest s .s7) := finish_check_fails hc

/-- An answer that writes and calls nothing leaves its outcome alone. -/
theorem runHookReply_idle (hc : contradicts bm h.outcome = false) (hs : h.staging = []) (hb : h.calls = []) :
    runHookReply s bm h = .next (h.outcome, s) := by
  simp [runHookReply, hc, hs, hb, stagingWrites, andThen]

/-- An answer whose outcome leaves `y` after the backend calls, whatever memory is, takes effect (R410). -/
theorem hookTakesEffect (hok : buildOk s.cfg = true) (hw : memWf s = true) {o : ReqOutcome} (ho : h.outcome = o)
    (hc : contradicts bm o = false) {y : State}
    (hcfg : y.cfg = (h.calls.foldl backendCall s).cfg) (hmem : y.mem = (h.calls.foldl backendCall s).mem)
    (hy : ∀ m, finishRequest bm l (.next (o, { h.calls.foldl backendCall s with mem := m })) =
      .next { y with mem := m }) :
    HookTakesEffect s h (finishRequest bm l (runHookReply s bm h)) y := by
  subst ho
  obtain ⟨m, hrun, -, hstaged, hframe⟩ := stagingWrites_ok hok hw h.staging
  obtain ⟨hcallsMem, hcallsCfg⟩ := backendCalls_frame s h.calls
  have hpeek (a : Nat) : peek { y with mem := m } a = peek { s with mem := m } a :=
    peek_congr (s := { s with mem := m }) (t := { y with mem := m }) (hcfg.trans hcallsCfg) rfl a
  refine ⟨{ y with mem := m }, ?_, ?_, fun i => (hpeek _).trans (hstaged i),
    fun a ha => (hpeek a).trans (hframe a ha)⟩
  · rw [← hy m, runHookReply, if_neg (by simp [hc]), hrun, ← backendCalls_mem]
    rfl
  · rw [← hcallsMem, ← hmem]

end

/-- `dev` as the hook reads it, TOKDNE following the token queue (R37, R166; log 18). -/
theorem devView_eq (s : State) : devView s = { s.dev with
    istat := s.dev.istat &&& 0xF7 ||| (if s.sie.tokq = [] then 0 else 0x08) } := rfl

/-- Settles O21: outcome by outcome; a DataIn or DataOut contradicts bmRequestType or takes effect, and the build checks
have it that an answer that stalls writes and calls nothing. -/
theorem vendorHookOutcomeTakesEffect : Obligations.VendorHookOutcomeTakesEffect := by
  intro s bm q v x l rows hok hw hhook hrows
  have hcontract := vendorReply_ok hok hrows ⟨bm, q, v, x, l⟩ (devView s)
  have hexec : exec (.vendorRequest bm q v x l) s = _ := execVendorRequest_hooked hhook hrows bm q v x l
  simp only [hexec, ← devView_eq]
  generalize vendorReply rows ⟨bm, q, v, x, l⟩ (devView s) = h at hcontract ⊢
  cases ho : h.outcome with
  | stall c =>
    obtain ⟨hs, hb⟩ : h.staging = [] ∧ h.calls = [] := by simpa [hookReplyOk, ho] using hcontract
    rw [runHookReply_idle (by rw [ho]; rfl) hs hb, ho]
    exact finish_fail bm l s c
  | noData cb => exact hookTakesEffect hok hw ho rfl rfl rfl fun m => rfl
  | dataIn a n cb =>
    cases hbm : bm.getLsbD 7 with
    | true =>
      have hagree : contradicts bm (.dataIn a n cb) = false := by rw [contradicts, hbm]; rfl
      exact hookTakesEffect hok hw ho hagree rfl rfl fun m => finish_dataIn hbm l _ a n cb
    | false => exact finish_hook_contradicting (by rw [ho, contradicts, hbm]; rfl)
  | dataOut a cb =>
    cases hbm : bm.getLsbD 7 with
    | true => exact finish_hook_contradicting (by rw [ho, contradicts, hbm])
    | false =>
      have hfinish (u : State) := finish_dataOut hbm l u a cb
      simp only [Bool.false_eq_true, if_false]
      split
      · next hl =>
        simp only [if_pos hl] at hfinish
        exact hookTakesEffect hok hw ho hbm rfl rfl fun m => hfinish _
      · next hl =>
        simp only [if_neg hl] at hfinish
        exact hookTakesEffect hok hw ho hbm rfl rfl fun m => hfinish _

/-! ## The notification -/

/-- In the default map the notification endpoint is EP3 (R7). -/
theorem notify_defaultMap {c : Params} (hm : c.epMap = defaultMap) (hv : c.ifCdcComm = 1) (hn : 3 < c.numEp) :
    HasRole c .interrupt .tx c.ifCdcComm .ep3 := by
  rw [hv]
  refine ⟨⟨by decide, hn⟩, ⟨.intMps, by rw [hm]; rfl⟩, ?_⟩
  rintro n h1 h3 ⟨m, hx⟩
  obtain rfl | rfl : n = 1 ∨ n = 2 := by have : n < 3 := h3; omega
  all_goals
    rw [hm] at hx
    cases hx

/-- The notification as the statement has it (R123). -/
theorem notificationBytes_eq (c : Params) (v : BitVec 16) : notificationBytes c v =
    [0xA1, 0x20, 0, 0, c.ifCdcComm, 0, 2, 0, BitVec.ofNat 8 v.toNat, BitVec.ofNat 8 (v.toNat / 256)] := by
  rw [notificationBytes, lo8_eq, hi8_eq]

/-- On the notification endpoint: F2 if it is disabled, F1 if it is busy, else the bytes are stored and the transfer
started (R418). -/
theorem execNotify_some {s : State} {e : EpId} (h : HasRole s.cfg .interrupt .tx s.cfg.ifCdcComm e) (v : BitVec 16) :
    execNotify v s =
      if (s.ep.get e).enabled = false then .next (faulted s .f2)
      else if (s.ep.get e).phase ≠ .idle then .next (faulted s .f1)
      else andThen (store s (bufAddr s.cfg e .tx (s.ep.get e).odd.tx) (notificationBytes s.cfg v))
        fun t => execStartTx (BitVec.ofNat 8 e.num) 10 0 t := by
  rw [execNotify, epNotify, epOfRole_some.2 h]
  rfl

/-- An IN transfer from the endpoint's own buffer, of at most a packet, is started on an idle client endpoint (R233). -/
theorem execStartTx_null {s : State} {b : BitVec 8} {e : EpId} {len : BitVec 16} (h : ClientEp s b e)
    (hd : dirOf s.cfg e = .tx) (hp : (s.ep.get e).phase = .idle) (hlen : len.toNat ≤ mps s.cfg e) :
    execStartTx b len 0 s = .next (transferBegun s e .tx 0 len) := by
  rw [execStartTx_eq, startCheck_passes h hd hp fun _ => hlen]
  exact started_admitted (.inl rfl)

/-- Settles O36: the checks on the endpoint of the role, then a store to its own buffer, which the start of the transfer
does not read. -/
theorem notifySendsSerialState : Obligations.NotifySendsSerialState := by
  intro s v hok hw
  refine ⟨notify_defaultMap, fun h => ?_, fun e h => ?_⟩
  · show execNotify v s = _
    rw [execNotify, epNotify, epOfRole_none.2 h]
    rfl
  have hexec : exec (.notify v) s = _ := execNotify_some h v
  have hmps : 10 ≤ mps s.cfg e := notify_mps hok (epOfRole_some.2 h)
  rw [hexec, ← notificationBytes_eq]
  refine ⟨fun hen => if_pos hen, fun hen hp => ?_, fun hen hp => ?_⟩
  · rw [if_neg (by simp [hen]), if_pos hp]
  · have hst := store_buf hok h.1.2 .tx (s.ep.get e).odd.tx (bs := notificationBytes s.cfg v) hmps
    have hstart (m : List (Nat × Byte)) := execStartTx_null (s := { s with mem := m }) (len := 10)
      (clientEp_of_hasRole h hen) (dirOf_of_hasRole h) hp hmps
    rw [if_neg (by simp [hen]), if_neg (not_not.2 hp), hst]
    exact ⟨_, hstart _, rfl, ((store_next hst).2.2 hw).2⟩

end Sys2Proof.Machine
end

section
/-! PROOFS. Faults and outputs across a step (60_exceptions.md): no operation takes a reason or an output back, and
under the slot invariants a served completion is an expected one and an armed slot is one the block holds. -/

namespace Sys2Proof.Machine

/-! ## Faults and outputs -/

/-- From `s` to `t` no reason is removed and outputs only grow; if `inv` holds, no F4 is raised and R490's flag stays as
it is (R444, R490). -/
structure Sticky (inv : Prop) (s t : State) : Prop where
  fault : ∀ r, hasReason s.fault r = true → hasReason t.fault r = true
  out : s.out <+: t.out
  clean : inv → t.fault.f4 = s.fault.f4 ∧ t.ownedWrite = s.ownedWrite

/-- Wherever the result goes on, it does so with a value in `R`. -/
def Yields {α : Type} (R : α → Prop) (r : Host.Outcome α Fault Refusal) : Prop := ∀ x, r = .next x → R x

/-- A raised fault adds its reason and no other (R443). -/
theorem hasReason_addReason (f : FaultSet) (q r : FaultReason) :
    hasReason (addReason f q) r = (hasReason f r || r == q) := by
  cases q <;> cases r <;> simp [hasReason, addReason]

section
variable {inv : Prop} {s t u : State} {e : EpId} {x : EndpointState}

theorem Sticky.trans (h : Sticky inv s t) (g : Sticky inv t u) : Sticky inv s u where
  fault r hr := g.fault r (h.fault r hr)
  out := h.out.trans g.out
  clean hi := ⟨(g.clean hi).1.trans (h.clean hi).1, (g.clean hi).2.trans (h.clean hi).2⟩

theorem sticky_emits (hf : t.fault = s.fault) (ho : s.out <+: t.out) (hw : t.ownedWrite = s.ownedWrite) :
    Sticky inv s t := ⟨fun _ hr => hf ▸ hr, ho, fun _ => ⟨hf ▸ rfl, hw⟩⟩

theorem sticky_same (hf : t.fault = s.fault) (ho : t.out = s.out) (hw : t.ownedWrite = s.ownedWrite) :
    Sticky inv s t := sticky_emits hf (by rw [ho]) hw

theorem Sticky.refl (s : State) : Sticky inv s s := sticky_same rfl rfl rfl

theorem sticky_faulted {r : FaultReason} (hr : inv → r ≠ .f4) : Sticky inv s (faulted s r) where
  fault q hq := by simp [faulted, hasReason_addReason, hq]
  out := ⟨_, rfl⟩
  clean hi := by
    have h4 : hasReason (addReason s.fault r) .f4 = hasReason s.fault .f4 := by
      simp [hasReason_addReason, (hr hi).symm]
    exact ⟨h4, rfl⟩

/-! ## Arming -/

/-- A slot the block holds is armed without R490's flag. -/
theorem sticky_packetArmed {d : Dir} (h : inv → (slot s e d (x.odd.get d)).own = false) :
    Sticky inv s (packetArmed s e d x) where
  fault _ hr := hr
  out := ⟨[], List.append_nil _⟩
  clean hi := ⟨rfl, by rw [packetArmed, show (((s.bdt.get e).get d).get _).own = false from h hi, Bool.or_false]⟩

theorem sticky_ep0RxArmed (h : inv → (slot s .ep0 .rx x.odd.rx).own = false) : Sticky inv s (ep0RxArmed s x) where
  fault _ hr := hr
  out := ⟨[], List.append_nil _⟩
  clean hi := ⟨rfl, by rw [ep0RxArmed, show (s.bdt.ep0.rx.get _).own = false from h hi, Bool.or_false]⟩

theorem sticky_ep0Armed {a : Addr} {n : Nat} (hrx : inv → (slot s .ep0 .rx x.odd.rx).own = false)
    (htx : inv → (slot s .ep0 .tx x.odd.tx).own = false) : Sticky inv s (ep0Armed s x a n) where
  fault _ hr := hr
  out := ⟨[], List.append_nil _⟩
  clean hi := ⟨rfl, by
    rw [ep0Armed, show (s.bdt.ep0.tx.get _).own = false from htx hi,
      show (s.bdt.ep0.rx.get _).own = false from hrx hi, Bool.or_false, Bool.or_false]⟩

/-- A protocol error arms EP0's RX slot by itself, without the flag (R238, R442). -/
theorem sticky_ep0Stalled (c : StallCause) : Sticky inv s (ep0Stalled s c) := sticky_emits rfl ⟨_, rfl⟩ rfl

/-- No callback raises a fault or arms a slot (R237, R322, R413). -/
theorem sticky_callbackRan (s : State) (e : EpId) (cb : Option Callback) : Sticky inv s (callbackRan s e cb) := by
  cases cb with
  | none => exact .refl s
  | some c =>
    cases c with
    | commitAddress => exact sticky_same rfl rfl rfl
    | client | vendor => exact sticky_emits rfl ⟨_, rfl⟩ rfl
    | applyLineCoding =>
      simp only [callbackRan]
      split
      · exact sticky_emits rfl ⟨_, rfl⟩ rfl
      · exact .refl s

/-- The stages of EP0 arm its slots, none of which the SIE owns (R274-R277). -/
theorem Stage.sticky {cb : Option Callback} (h : Stage s cb t) (hown : ∀ d k, (slot s .ep0 d k).own = false) :
    Sticky inv s t := by
  cases h with
  | stall c => exact sticky_ep0Stalled c
  | noData | dataIn => exact sticky_ep0Armed (fun _ => hown .rx _) fun _ => hown .tx _
  | dataOut => exact sticky_ep0RxArmed fun _ => hown .rx _

end

/-! ## Results -/

section
variable {α : Type} {R : α → Prop} {inv : Prop} {s t : State}

theorem yields_next {x : α} (h : R x) : Yields R (.next x) := by rintro _ ⟨⟩; exact h

theorem yields_refused (x : Refusal) : Yields R (.refused x) := by rintro _ ⟨⟩

theorem Yields.ite {c : Prop} [Decidable c] {a b : Host.Outcome α Fault Refusal} (ha : c → Yields R a)
    (hb : ¬ c → Yields R b) : Yields R (if c then a else b) := by
  split
  · exact ha ‹_›
  · exact hb ‹_›

/-- A load, then a part that yields such values whatever was read. -/
theorem yields_load {a : Addr} {n : Nat} {f : List Byte → Host.Outcome α Fault Refusal} (hf : ∀ b, Yields R (f b)) :
    Yields R (andThen (load s a n) f) := by
  intro x hx
  obtain ⟨b, -, hx⟩ := andThen_next.1 hx
  exact hf b x hx

theorem Sticky.then {r : Res} (h : Sticky inv s t) (hr : Yields (Sticky inv t) r) : Yields (Sticky inv s) r :=
  fun x hx => h.trans (hr x hx)

theorem sticky_store {a : Addr} {bs : List Byte} (h : store s a bs = .next t) : Sticky inv s t := by
  rw [(store_next h).1]
  exact sticky_same rfl rfl rfl

/-- A store, then a sticky part. -/
theorem yields_store {a : Addr} {bs : List Byte} {f : State → Res} (hf : ∀ v, Calm s v → Yields (Sticky inv v) (f v)) :
    Yields (Sticky inv s) (andThen (store s a bs) f) := by
  intro t ht
  obtain ⟨v, hv, ht⟩ := andThen_next.1 ht
  exact (sticky_store hv).trans (hf v (calm_store hv) t ht)

end

/-! ## Requests -/

/-- What a request's execution leaves: nothing of a fault or the flag, and EP0's slots as they were (R310). -/
def Requested (inv : Prop) (s : State) (p : ReqOutcome × State) : Prop := Sticky inv s p.2 ∧ p.2.bdt.ep0 = s.bdt.ep0

section
variable {inv : Prop} {s : State} {r : ReqRes}

theorem Yields.finish {bm : Byte} {l : BitVec 16} (hown : ∀ d k, (slot s .ep0 d k).own = false)
    (h : Yields (Requested inv s) r) : Yields (Sticky inv s) (finishRequest bm l r) := by
  intro t ht
  obtain ⟨⟨o, v⟩, rfl, -⟩ := andThen_next.1 ht
  obtain ⟨w, hw, rfl⟩ := finish_stage ht
  obtain ⟨hv, hbdt⟩ := h _ rfl
  have hslots (d : Dir) (k : Bool) : slot v .ep0 d k = slot s .ep0 d k := congrArg (fun b => (b.get d).get k) hbdt
  exact (hv.trans (hw.sticky fun d k => hslots d k ▸ hown d k)).trans (sticky_same rfl rfl rfl)

theorem requested_same {o : ReqOutcome} : Yields (Requested inv s) (.next (o, s)) := yields_next ⟨.refl s, rfl⟩

theorem requested_fail (c : StallCause) : Yields (Requested inv s) (fail s c) := requested_same

/-- A check that fails with a cause, in front of the rest of a request. -/
theorem Yields.check {c : Prop} [Decidable c] {x : StallCause} (h : Yields (Requested inv s) r) :
    Yields (Requested inv s) (if c then fail s x else r) := .ite (fun _ => requested_fail x) fun _ => h

/-- The checks of the CDC hook, in front of the rest of a request (R411). -/
theorem Yields.cdc {lenOk : Bool} {x : BitVec 16} (h : Yields (Requested inv s) r) :
    Yields (Requested inv s) (match cdcCheck s lenOk x with
      | some c => fail s c
      | none => r) := by
  cases cdcCheck s lenOk x with
  | some c => exact requested_fail c
  | none => exact h

theorem sticky_backendCalls (s : State) (l : List BackendCall) :
    Sticky inv s (l.foldl backendCall s) ∧ (l.foldl backendCall s).bdt = s.bdt := by
  induction l generalizing s with
  | nil => exact ⟨.refl s, rfl⟩
  | cons b l ih =>
    obtain ⟨hs, hb⟩ := ih (backendCall s b)
    exact ⟨.trans (sticky_emits (by simp) (by cases b <;> exact ⟨_, rfl⟩) (by simp)) hs, hb.trans (backendCall_bdt s b)⟩

/-- A reply whose bytes are stored first, after backend calls (R310, R414). -/
theorem requested_stored (l : List BackendCall) (a : Addr) (b : List Byte) (o : ReqOutcome) :
    Yields (Requested inv s) (andThen (store (l.foldl backendCall s) a b) fun s' => .next (o, s')) := by
  intro x hx
  obtain ⟨v, hv, hx⟩ := andThen_next.1 hx
  cases hx
  obtain ⟨hs, hb⟩ := sticky_backendCalls (inv := inv) s l
  exact ⟨hs.trans (sticky_store hv), congrArg EpBank.ep0 ((calm_store hv).bdt.trans hb)⟩

theorem requested_replyDescriptor (x : Option ReplySource) : Yields (Requested inv s) (replyDescriptor s x) := by
  cases x with
  | none => exact requested_fail _
  | some x =>
    cases x with
    | rom => exact requested_same
    | bytes => exact requested_stored [] _ _ _

theorem requested_deviceFeature (x : BitVec 16) (v : Bool) : Yields (Requested inv s) (deviceFeature s x v) :=
  .ite (fun _ => .ite (fun _ => yields_next ⟨sticky_same rfl rfl rfl, rfl⟩) fun _ => requested_fail _)
    fun _ => .check (requested_fail _)

/-- CLEAR_FEATURE and SET_FEATURE of an endpoint other than EP0 take back its own slots (R317, R320). -/
theorem requested_endpointFeature {f : State → EpId → State} {st : Bool} {p : Phase}
    (hf : ∀ e, e ≠ .ep0 → f s e = haltReset s e st p) (x v : BitVec 16) :
    Yields (Requested inv s) (match epCheck s x with
      | none => fail s .s6
      | some e => if v ≠ 0 then fail s .s5 else noData (if e = .ep0 then s else f s e) none) := by
  cases epCheck s x with
  | none => exact requested_fail _
  | some e =>
    refine .check (yields_next ?_)
    split
    · exact ⟨.refl s, rfl⟩
    · rename_i he
      rw [hf e he, haltReset_eq]
      exact ⟨sticky_same rfl rfl rfl, ep0_set _ he _⟩

/-- SET_CONFIGURATION rebuilds the other endpoints (R329, R330). -/
theorem requested_configure (v : BitVec 16) (o : ReqOutcome) : Requested inv s (o, configure s v) := by
  have hb : (nonControl s.cfg).foldl build s = allRebuilt s true := foldl_rebuild_eq s true
  have ht : (nonControl s.cfg).foldl teardown s = allRebuilt s false := foldl_rebuild_eq s false
  have rebuilt (b : Bool) (d : DeviceState) : Requested inv s (o, setDev (allRebuilt s b) d) :=
    ⟨sticky_same rfl rfl rfl, rfl⟩
  unfold configure
  rw [hb, ht]
  split
  · exact rebuilt _ _
  · split
    · exact rebuilt _ _
    · exact ⟨.refl s, rfl⟩

theorem sticky_stagingWrites {t : State} {ws : List (Fin 7 × Byte)} (h : stagingWrites s ws = .next t) :
    Sticky inv s t := by
  induction ws generalizing s with
  | nil => cases h; exact .refl _
  | cons w ws ih =>
    obtain ⟨v, hv, h⟩ := andThen_next.1 h
    exact (sticky_store hv).trans (ih h)

theorem requested_runHookReply (bm : Byte) (x : HookReply) : Yields (Requested inv s) (runHookReply s bm x) := by
  refine .check fun p hp => ?_
  obtain ⟨v, hv, hp⟩ := andThen_next.1 hp
  cases hp
  obtain ⟨hs, hb⟩ := sticky_backendCalls (inv := inv) v x.calls
  exact ⟨(sticky_stagingWrites hv).trans hs, congrArg EpBank.ep0 (hb.trans (calm_stagingWrites hv).bdt)⟩

/-- Every SETUP row, run while the SIE owns no slot of EP0 (R272, R273). -/
theorem sticky_execRequest (hown : ∀ d k, (slot s .ep0 d k).own = false) (i : Instr) :
    Yields (Sticky inv s) (execRequest i s) := by
  have staged (b : List Byte) : Yields (Requested inv s) (replyStaged s b) := requested_stored [] _ b _
  cases i with
  | getStatusDevice | getConfiguration => exact .finish hown (.check (.check (staged _)))
  | getStatusInterface | getInterface => exact .finish hown (.check (.check (.check (staged _))))
  | getStatusEndpoint v x l =>
    refine .finish hown (.check (.check ?_))
    cases epCheck s x with
    | none => exact requested_fail _
    | some e => exact staged _
  | clearFeatureDevice | setFeatureDevice => exact .finish hown (.check (.check (requested_deviceFeature _ _)))
  | clearFeatureInterface | setFeatureInterface => exact .finish hown (.check (.check (.check (requested_fail _))))
  | clearFeatureEndpoint v x l =>
    exact .finish hown (.check (.check (requested_endpointFeature (fun _ _ => rfl) x v)))
  | setFeatureEndpoint v x l =>
    exact .finish hown (.check (.check (requested_endpointFeature (fun _ he => if_neg he) x v)))
  | setAddress => exact .finish hown (.check (.check (.check (yields_next ⟨sticky_same rfl rfl rfl, rfl⟩))))
  | getDescriptorDevice | getDescriptorConfiguration | getDescriptorString =>
    exact .finish hown (.check (requested_replyDescriptor _))
  | getDescriptorOther => exact .finish hown (.check (requested_fail _))
  | setConfiguration => exact .finish hown (.check (.check (.check (yields_next (requested_configure _ _)))))
  | setInterface => exact .finish hown (.check (.check (.check (.check requested_same))))
  | setDescriptor | synchFrame | stdUnmatched | classUnmatched | reservedType =>
    exact .finish hown (requested_fail _)
  | cdcSetLineCoding => exact .finish hown (.cdc requested_same)
  | cdcSetControlLineState | cdcSendBreak =>
    exact .finish hown (.cdc (yields_next ⟨sticky_emits rfl ⟨_, rfl⟩ rfl, rfl⟩))
  | cdcGetLineCoding => exact .finish hown (.cdc (requested_stored [.getLineCoding] _ _ _))
  | vendorRequest =>
    refine .finish hown (.check ?_)
    cases s.cfg.vendorHook with
    | none => exact requested_fail _
    | some rows => exact requested_runHookReply _ _
  | tokSetupEp0 | tokOutEp0 | tokInEp0 | tokOutEpn | tokInEpn | tokSetupEpn | evUsbrst | evError | evSoftok | evTokdne
    | evSleep | evResume | evStall | startTx | startRx | stall | clearStall | setCallback | notify | sendData
    | receiveData | isConfigured => exact yields_refused _

end

/-! ## Completions -/

section
variable {inv : Prop} {s t u : State} {e : EpId} {d : Dir} {k : Bool}

/-- The SETUP handler takes EP0's slots back before its request arms one (R272). -/
theorem sticky_handleSetup (hok : buildOk u.cfg = true) (k : Bool) : Yields (Sticky inv u) (handleSetup u k) := by
  have resynced (p : Setup) : Sticky inv u (setupResynced u p) := sticky_same rfl rfl rfl
  rw [handleSetup_eq hok]
  refine .ite (fun _ => yields_next ?_) fun _ => (resynced _).then (sticky_execRequest (fun d k => ?_) _)
  · exact ((resynced _).trans (sticky_ep0Stalled _)).trans (sticky_same rfl rfl rfl)
  · cases d <;> cases k <;> rfl

/-- EP0's OUT data stage arms RX, whose completion has been taken, and TX, which is free in DataOut (R279). -/
theorem sticky_outInDataOut (hok : buildOk u.cfg = true) (hp : inv → PoppedInv u .ep0 .rx k)
    (hph : u.ep.ep0.phase = .dataOut) (n : BitVec 10) : Yields (Sticky inv u) (outInDataOut (ep0OutFlipped u) k n) := by
  have flipped : Sticky inv u (ep0OutFlipped u) := sticky_same rfl rfl rfl
  refine flipped.then (.ite (fun _ => yields_next (raiseStall_eq _ _ ▸ sticky_ep0Stalled _)) fun _ =>
    yields_load fun b => yields_store fun v hv => ?_)
  have hslot (g : Dir) (j : Bool) : slot v .ep0 g j = slot u .ep0 g j := by simp only [slot, slots, hv.bdt]; rfl
  have hrx (hi : inv) (j : Bool) : (slot v .ep0 .rx j).own = false := hslot .rx j ▸ (hp hi).flipped.own j
  have htx (hi : inv) (j : Bool) : (slot v .ep0 .tx j).own = false :=
    hslot .tx j ▸ ((hp hi).flip.1.free_ep0Tx hph (by decide)).own j
  have advanced : Sticky inv v (setEp v .ep0 (advance v.ep.ep0 n)) := sticky_same rfl rfl rfl
  refine .ite (fun _ => ?_) fun _ => yields_next ?_
  · rw [fire_eq (by exact hv.cfg ▸ hok)]
    refine yields_next (.trans ?_ (sticky_callbackRan _ _ _))
    exact sticky_ep0Armed (fun hi => hrx hi _) fun hi => htx hi _
  · exact sticky_ep0RxArmed fun hi => hrx hi _

/-- A completion served in any other way than by the two handlers above (R235, R236, R278-R282). -/
theorem Served.sticky (h : Served u e d k t) (hp : inv → PoppedInv u e d k)
    (hrx : e = .ep0 → d = .rx → (slot u .ep0 .rx k).pid ≠ pidSetup ∧ u.ep.ep0.phase ≠ .dataOut) : Sticky inv u t := by
  have finishes (y : EndpointState) : Sticky inv u (finished u e y) :=
    Sticky.trans (t := { u with ep := u.ep.set e { y with callback := none } }) (sticky_same rfl rfl rfl)
      (sticky_callbackRan _ e _)
  have flipped : Sticky inv u (ep0OutFlipped u) := sticky_same rfl rfl rfl
  cases h with
  | inNext | outNext => exact sticky_packetArmed fun hi => (hp hi).flipped.own _
  | inEnd | outEnd => exact finishes _
  | outStall c => exact flipped.trans (sticky_ep0Stalled c)
  | outStatus => exact flipped.trans (sticky_ep0RxArmed fun hi => (hp hi).flipped.own _)
  | outEarly =>
    have dropped : Sticky inv u (ep0TxDropped (ep0OutFlipped u)) := sticky_same rfl rfl rfl
    exact dropped.trans (sticky_ep0RxArmed fun hi => (hp hi).flipped.own _)
  | outData n hph | outDataEnd n hph => exact absurd hph (hrx rfl rfl).2
  | setup hpid => exact absurd hpid (hrx rfl rfl).1

/-- A SETUP of EP0 that is expected runs the SETUP handler (R372). -/
theorem execEvTokdne_ep0Setup {c : Completion} {q : List Completion} (ht : takeCompletion s.sie.tokq = some (c, q))
    (hn : c.ep.toNat = EpId.ep0.num) (hd : c.dir = .rx) (hx : Expected s .ep0 c.dir c.odd)
    (hpid : (slot s .ep0 .rx c.odd).pid = pidSetup) : execEvTokdne s = handleSetup (popped s q) c.odd := by
  obtain ⟨hmap, -, hc, hp⟩ := hx
  rw [hd, hpid] at hc hp
  rw [execEvTokdne_some ht (endpointOf_some.2 ⟨hn, hmap⟩), hd, if_pos ⟨hpid, rfl⟩, if_pos rfl]
  exact served (s := popped s q) hc hp _

/-- An OUT of EP0 that is expected runs its OUT handler (R372). -/
theorem execEvTokdne_ep0Out {c : Completion} {q : List Completion} (ht : takeCompletion s.sie.tokq = some (c, q))
    (hn : c.ep.toNat = EpId.ep0.num) (hd : c.dir = .rx) (hx : Expected s .ep0 c.dir c.odd)
    (hpid : (slot s .ep0 .rx c.odd).pid = pidOut) : execEvTokdne s = handleEp0Out (popped s q) c.odd := by
  obtain ⟨hmap, -, hc, hp⟩ := hx
  rw [hd, hpid] at hc hp
  rw [execEvTokdne_some ht (endpointOf_some.2 ⟨hn, hmap⟩), hd, hpid, if_neg (by decide), if_pos ⟨rfl, rfl⟩]
  exact served (s := popped s q) hc hp _

/-- EV_TOKDNE serves a completion; under the slot invariants it drops none (R372, R443). -/
theorem sticky_execEvTokdne (hok : buildOk s.cfg = true) (hs : inv → SlotInv s) :
    Yields (Sticky inv s) (execEvTokdne s) := by
  intro t h
  cases ht : takeCompletion s.sie.tokq with
  | none => simp only [execEvTokdne, ht] at h; cases h; exact .refl s
  | some p =>
    obtain ⟨⟨ep, d, k⟩, q⟩ := p
    refine Sticky.trans (t := popped s q) (sticky_same rfl rfl rfl) ?_
    rcases execEvTokdne_cases hok ht h with ⟨e, hn, hx, hsv⟩ | ⟨hx, rfl⟩
    · have hp (hi : inv) : PoppedInv (popped s q) e d k := (hs hi).popped ht hn
      by_cases hsp : e = .ep0 ∧ d = .rx ∧ ((slot s .ep0 .rx k).pid = pidSetup ∨ s.ep.ep0.phase = .dataOut)
      · obtain ⟨rfl, rfl, hsp⟩ := hsp
        by_cases hset : (slot s .ep0 .rx k).pid = pidSetup
        · rw [execEvTokdne_ep0Setup ht hn rfl hx hset] at h
          exact sticky_handleSetup (by exact hok) k t h
        · have hph : (popped s q).ep.ep0.phase = .dataOut := hsp.resolve_left hset
          rw [execEvTokdne_ep0Out ht hn rfl hx (by simpa [PidOf, hset] using hx.pid), handleEp0Out_dataOut hph] at h
          exact sticky_outInDataOut (by exact hok) hp hph _ t h
      · exact hsv.sticky hp fun he hd => ⟨fun hx => hsp ⟨he, hd, .inl hx⟩, fun hx => hsp ⟨he, hd, .inr hx⟩⟩
    · refine sticky_faulted fun hi => ?_
      obtain ⟨e, he, hc⟩ := (hs hi).takes ht
      exact absurd hc (hx e he)

end

/-! ## Events, commands and transactions -/

section
variable {inv : Prop} {s : State}

theorem sticky_execEvSoftok (s : State) : Yields (Sticky inv s) (execEvSoftok s) := by
  obtain ⟨-, hsof, -⟩ := stallSofAndErrorEvents s
  rw [show execEvSoftok s = _ from hsof]
  exact yields_next (sticky_emits rfl ⟨_, rfl⟩ rfl)

/-- Of the events only a token completion raises a fault, and a bus reset arms a slot of a fresh lane (R372-R378). -/
theorem sticky_runDispatch (hok : buildOk s.cfg = true) (hs : inv → SlotInv s) (g : Bool) :
    Yields (Sticky inv s) (runDispatch g s) := by
  unfold runDispatch
  cases hd : decodeEvent (pending s) g with
  | none => exact yields_next (.refl s)
  | some i =>
    unfold decodeEvent at hd
    repeat' split at hd
    all_goals cases hd
    · exact yields_next (Sticky.trans (t := busResetRest s) (sticky_same rfl rfl rfl)
        (sticky_ep0RxArmed fun _ => (fresh_busResetRest s).own .ep0 .rx _))
    · exact sticky_execEvTokdne hok hs
    · exact .ite (fun _ => .ite (fun _ => yields_next (sticky_same rfl rfl rfl))
        fun _ => yields_next (sticky_emits rfl ⟨_, rfl⟩ rfl)) fun _ => yields_next (sticky_same rfl rfl rfl)
    · exact yields_next (sticky_same rfl rfl rfl)
    · exact sticky_execEvSoftok s
    · exact .ite (fun _ => yields_next (sticky_same rfl rfl rfl)) fun _ => yields_next (sticky_same rfl rfl rfl)
    · exact yields_next (sticky_emits rfl ⟨_, rfl⟩ rfl)

/-- No check of a start fails with F4 (R233, R234). -/
theorem startCheck_ne_f4 {e : BitVec 8} {d : Dir} {len : BitVec 16} {buf : Addr} {r : FaultReason}
    (h : startCheck s e d len buf = .error r) : r ≠ .f4 := by
  unfold startCheck at h
  repeat' split at h
  all_goals cases h
  all_goals decide

theorem roleCheck_ne_f4 {e : Option EpId} {d : Dir} {len : BitVec 16} {buf : Addr} {r : FaultReason}
    (h : roleCheck s e d len buf = .error r) : r ≠ .f4 := by
  cases e with
  | none => cases h; decide
  | some i => exact startCheck_ne_f4 h

/-- A transfer started on an Idle endpoint arms a slot of a free lane (R233, R234). -/
theorem sticky_transferBegun (hs : inv → SlotInv s) {i : EpId} (ho : Other s.cfg i) (hp : (s.ep.get i).phase = .idle)
    (d : Dir) (buf : Addr) (len : BitVec 16) : Sticky inv s (transferBegun s i d buf len) :=
  sticky_packetArmed fun hi => ((hs hi).free_idle ho.1 hp d).own _

/-- A start is lost with another fault than F4, refused, or begun (R233, R234, R244). -/
theorem sticky_started {d : Dir} {buf : Addr} {len : BitVec 16} {lost : FaultReason → State} {begun : EpId → State}
    {x : Except FaultReason EpId} (hs : inv → SlotInv s) (hr : ∀ r, x = .error r → r ≠ .f4)
    (hi : ∀ i, x = .ok i → Other s.cfg i ∧ (s.ep.get i).enabled = true ∧ dirOf s.cfg i = d ∧ (s.ep.get i).phase = .idle)
    (hl : ∀ r, Sticky inv (faulted s r) (lost r)) (hb : ∀ i, Sticky inv (transferBegun s i d buf len) (begun i)) :
    Yields (Sticky inv s) (started s d buf len lost begun x) := by
  cases x with
  | error r => exact yields_next ((sticky_faulted fun _ => hr r rfl).trans (hl r))
  | ok i =>
    obtain ⟨ho, -, -, hp⟩ := hi i rfl
    exact .ite (fun _ => yields_next ((sticky_transferBegun hs ho hp _ _ _).trans (hb i))) fun _ => yields_refused _

theorem sticky_execStartTx (hs : inv → SlotInv s) (e : BitVec 8) (len : BitVec 16) (buf : Addr) :
    Yields (Sticky inv s) (execStartTx e len buf s) := by
  rw [execStartTx_eq]
  exact sticky_started hs (fun _ => startCheck_ne_f4) (fun _ => startCheck_ok) (fun _ => .refl _) fun _ => .refl _

theorem sticky_execStartRx (hs : inv → SlotInv s) (e : BitVec 8) (len : BitVec 16) (buf : Addr) :
    Yields (Sticky inv s) (execStartRx e len buf s) := by
  rw [execStartRx_eq]
  exact sticky_started hs (fun _ => startCheck_ne_f4) (fun _ => startCheck_ok) (fun _ => .refl _) fun _ => .refl _

theorem sticky_execSendData (hs : inv → SlotInv s) (buf : Addr) (len : BitVec 16) :
    Yields (Sticky inv s) (execSendData buf len s) := by
  rw [execSendData_eq]
  exact sticky_started hs (fun _ => roleCheck_ne_f4) (fun _ => roleCheck_ok) (fun _ => .refl _)
    fun _ => sticky_same rfl rfl rfl

theorem sticky_execReceiveData (hs : inv → SlotInv s) (buf : Addr) (len : BitVec 16) :
    Yields (Sticky inv s) (execReceiveData buf len s) := by
  rw [execReceiveData_eq]
  exact sticky_started hs (fun _ => roleCheck_ne_f4) (fun _ => roleCheck_ok) (fun _ => sticky_same rfl rfl rfl)
    fun _ => sticky_same rfl rfl rfl

theorem sticky_execNotify (hs : inv → SlotInv s) (v : BitVec 16) : Yields (Sticky inv s) (execNotify v s) := by
  have lost {r : FaultReason} (hr : r ≠ .f4) : Yields (Sticky inv s) (.next (raiseFault s r)) :=
    yields_next (sticky_faulted fun _ => hr)
  unfold execNotify
  cases epNotify s.cfg with
  | none => exact lost (by decide)
  | some e =>
    exact .ite (fun _ => lost (by decide)) fun _ => .ite (fun _ => lost (by decide)) fun _ =>
      yields_store fun v hv => sticky_execStartTx (fun hi => (hs hi).calm hv) _ _ _

/-- A command on the endpoint it names, or lost with F2 (R240-R242). -/
theorem sticky_named {e : BitVec 8} {f : EpId → State} (hf : ∀ i, Sticky inv s (f i)) :
    Yields (Sticky inv s) (match clientEp s e with
      | none => .next (raiseFault s .f2)
      | some i => .next (f i)) := by
  cases clientEp s e with
  | none => exact yields_next (sticky_faulted fun _ => by decide)
  | some i => exact yields_next (hf i)

/-- Every client command (R133). -/
theorem sticky_runClient (hs : inv → SlotInv s) (word : List Byte) : Yields (Sticky inv s) (runClient word s) := by
  unfold runClient decode
  cases hd : decodeCmd word with
  | none => exact yields_refused _
  | some i =>
    unfold decodeCmd at hd
    repeat' split at hd
    all_goals cases hd
    · exact yields_next (sticky_same rfl rfl rfl)
    · exact sticky_named fun i => sticky_same (stallEp_fault s i) (stallEp_out s i) (stallEp_ownedWrite s i)
    · exact sticky_named fun _ => sticky_same rfl rfl rfl
    · exact sticky_execNotify hs _
    · exact sticky_named fun _ => sticky_same rfl rfl rfl
    · exact sticky_execSendData hs _ _
    · exact sticky_execReceiveData hs _ _
    · exact sticky_execStartTx hs _ _ _
    · exact sticky_execStartRx hs _ _ _

theorem sticky_overrun (x : Slot) : Yields (Sticky inv s) (overrun s x) :=
  yields_store fun _ _ => yields_next (sticky_same rfl rfl rfl)

theorem sticky_hostSetup (a : BitVec 7) (e : BitVec 4) (data : List Byte) :
    Yields (Sticky inv s) (hostSetup a e data s) := by
  have ignored : Yields (Sticky inv s) (.next (answer s .none)) := yields_next (sticky_same rfl rfl rfl)
  exact .ite (fun _ => ignored) fun _ => .ite (fun _ => ignored) fun _ => .ite (fun _ => ignored) fun _ =>
    .ite (fun _ => sticky_overrun _) fun _ => yields_store fun _ _ => yields_next (sticky_same rfl rfl rfl)

theorem sticky_hostOut (a : BitVec 7) (e : BitVec 4) (p : Bool) (data : List Byte) :
    Yields (Sticky inv s) (hostOut a e p data s) := by
  have answered (x : Answer) : Yields (Sticky inv s) (.next (answer s x)) := yields_next (sticky_same rfl rfl rfl)
  unfold hostOut
  cases tokenTo s a e with
  | none => exact answered _
  | some i =>
    refine .ite (fun _ => ?_) fun _ => answered _
    exact .ite (fun _ => yields_next (sticky_same rfl rfl rfl)) fun _ => .ite (fun _ => answered _) fun _ =>
      .ite (fun _ => sticky_overrun _) fun _ => .ite (fun _ => answered _) fun _ =>
        yields_store fun _ _ => yields_next (sticky_same rfl rfl rfl)

theorem sticky_hostIn (a : BitVec 7) (e : BitVec 4) (ack : Bool) : Yields (Sticky inv s) (hostIn a e ack s) := by
  have answered (x : Answer) : Yields (Sticky inv s) (.next (answer s x)) := yields_next (sticky_same rfl rfl rfl)
  unfold hostIn
  cases tokenTo s a e with
  | none => exact answered _
  | some i =>
    refine .ite (fun _ => .ite (fun _ => yields_next (sticky_same rfl rfl rfl)) fun _ => .ite (fun _ => answered _)
      fun _ => yields_load fun b => yields_next ?_) fun _ => answered _
    split <;> exact sticky_same rfl rfl rfl

/-! ## The step -/

/-- Every line but INIT, which clears the faults (R135, R480). -/
theorem sticky_runLine (hok : buildOk s.cfg = true) (hs : inv → SlotInv s) {l : Line} (hl : l ≠ .init) :
    Yields (Sticky inv s) (runLine l s) := by
  cases l with
  | init => exact absurd rfl hl
  | hReset | hSof | hIdle | hResume => exact yields_next (sticky_same rfl rfl rfl)
  | hSetup a e data => exact sticky_hostSetup a e data
  | hOut a e p data => exact sticky_hostOut a e p data
  | hIn a e ack => exact sticky_hostIn a e ack
  | hError x => exact .ite (fun _ => yields_refused _) fun _ => yields_next (sticky_same rfl rfl rfl)
  | dispatch g => exact sticky_runDispatch hok hs g
  | client word => exact sticky_runClient hs word
  | backend v =>
    exact Sticky.then (t := { s with backend := { s.backend with lineState := v } }) (sticky_same rfl rfl rfl)
      (sticky_execNotify (fun hi => (hs hi).calm (calm_backend s _)) v)
  | memWrite a data => exact fun _ => sticky_store

theorem sticky_runNext (hok : buildOk s.cfg = true) (hi : nextLine s ≠ some .init) :
    Yields (Sticky (SlotInv s) s) (runNext s) := by
  unfold runNext
  cases hl : takeLine s s.lines with
  | none =>
    refine .ite (fun _ => ?_) fun _ => yields_next (.refl s)
    exact Sticky.then (t := { s with draws := s.draws + 1 }) (sticky_same rfl rfl rfl)
      (sticky_runDispatch (by exact hok) (fun h => h.calm (calm_draws s _)) _)
  | some p =>
    obtain ⟨l, rest⟩ := p
    exact Sticky.then (t := { s with lines := rest }) (sticky_same rfl rfl rfl)
      (sticky_runLine (by exact hok) (fun h => h.calm (calm_lines s rest)) fun hx => hi (by simp [nextLine, hl, hx]))

end

/-- Settles O55: no operation but INIT takes back a reason or an output; a completion queued within the slot invariants
is an expected one, and the lane of a slot about to be armed is free or has just had its completion taken. -/
theorem faultsAreSticky : Obligations.FaultsAreSticky := by
  intro s t h hi
  obtain ⟨u, hu, rfl⟩ := step_wakes h
  obtain ⟨hfault, ⟨l, hl⟩, hclean⟩ := sticky_runNext (step_cases h).1 hi u hu
  rw [wakeClient_fault, wakeClient_out, wakeClient_ownedWrite]
  exact ⟨hfault, ⟨l, hl.symm⟩, hclean⟩

end Sys2Proof.Machine
end

section
/-! PROOFS. The build checks (41_descriptor_model.md, R446): each check as the property of the map, a descriptor, the
configuration block or the regions it stands for, and the block's walk as a list of descriptors. -/

namespace Sys2Proof.Machine

/-- The checks of the three descriptors (R202-R205, R209-R213). -/
theorem buildOk_descs {c : Params} (h : buildOk c = true) :
    c.numConfig = 1 ∧ deviceDescOk c = true ∧ configDescOk c = true ∧ langidOk c = true := by
  simp only [buildOk, widthsOk, Bool.and_eq_true, beq_iff_eq] at h
  obtain ⟨⟨hconf, -⟩, -, -, hdev, hcfg, hlang, -⟩ := h
  exact ⟨hconf, hdev, hcfg, hlang⟩

/-! ## The endpoint map (R6, R7, R210) -/

theorem packetSize_eq (c : Params) (m : EpMps) : packetSize c m = mpsBytes c m := by cases m <;> rfl

/-- A checked entry of an endpoint other than EP0 (R7, R210, D4). -/
theorem clientEntryOk_legal {c : Params} {x : EpEntry} (h : clientEntryOk c x = true) :
    ∃ t d m i, x = ⟨t, .only d, m, some i⟩ ∧
      (t = .bulk ∧ packetSize c m ∈ [8, 16, 32, 64] ∨ t = .interrupt ∧ 1 ≤ packetSize c m ∧ packetSize c m ≤ 64) := by
  obtain ⟨t, d, m, i⟩ := x
  simp only [clientEntryOk, Bool.and_eq_true, bne_iff_ne, Option.isSome_iff_exists, ← packetSize_eq] at h
  obtain ⟨⟨hd, i, rfl⟩, ht⟩ := h
  cases d with
  | both => exact absurd rfl hd
  | only d =>
    refine ⟨t, d, m, i, rfl, ?_⟩
    cases t with
    | control => cases ht
    | bulk => exact .inl ⟨rfl, by simpa using ht⟩
    | interrupt => exact .inr ⟨rfl, by simpa using ht⟩

/-- The endpoint of a number from 1 on below `NUM_EP` (R6, R57). -/
theorem other_of_num {c : Params} (h : buildOk c = true) {n : Nat} (h1 : 1 ≤ n) (hn : n < c.numEp) :
    ∃ e : EpId, e.num = n ∧ Other c e := by
  obtain ⟨-, h16, -⟩ := numEp_range h
  obtain ⟨e, -, rfl⟩ := EpId.ofNat?_of_lt (n := n) (by omega)
  exact ⟨e, rfl, by rintro rfl; simp [EpId.num] at h1, hn⟩

theorem mapLegal_of_buildOk {c : Params} (h : buildOk c = true) : MapLegal c := by
  obtain ⟨h2, h16, hlen, -⟩ := numEp_range h
  refine ⟨⟨h2, h16, hlen⟩, ?_, fun n h1 hn => ?_⟩
  · have hm := buildOk_map h
    simp only [mapOk, Bool.and_eq_true, Option.any_eq_true, controlEntryOk, beq_iff_eq] at hm
    obtain ⟨⟨⟨-, ⟨t, d, m, i⟩, hx, ⟨⟨rfl, rfl⟩, hmps⟩, rfl⟩, -⟩, -⟩ := hm
    exact ⟨m, hx, (packetSize_eq c m).trans hmps⟩
  · obtain ⟨e, rfl, ho⟩ := other_of_num h h1 hn
    obtain ⟨x, hx, hok⟩ := client_entry h ho.1 ho.2
    obtain ⟨t, d, m, i, rfl, hsize⟩ := clientEntryOk_legal hok
    exact ⟨t, d, m, i, hx, hsize⟩

/-- The endpoints other than EP0 are one fewer than `NUM_EP` (R6). -/
theorem length_nonControl {c : Params} (h : buildOk c = true) : (nonControl c).length + 1 = c.numEp := by
  have count : ∀ n ≤ 16, 1 ≤ n → ((allEps.filter fun e => decide (e.num < n)).filter (· != .ep0)).length + 1 = n := by
    decide
  obtain ⟨h2, h16, -⟩ := numEp_range h
  exact count c.numEp h16 (by omega)

/-! ## The walk over the configuration block (R202, R205) -/

/-- The descriptors of a block in order, each as long as it says (R202). -/
theorem splitDescs_walk {n : Nat} {b : List Byte} {l : List (List Byte)} (h : splitDescs n b = some l) :
    b = l.flatten ∧ ∀ d ∈ l, 2 ≤ d.length ∧ fld d 0 = d.length := by
  induction n generalizing b l with
  | zero =>
    cases b with
    | nil => cases h; exact ⟨rfl, nofun⟩
    | cons a b => cases h
  | succ n ih =>
    cases b with
    | nil => cases h; exact ⟨rfl, nofun⟩
    | cons a b =>
      simp only [splitDescs] at h
      split at h
      · cases h
      · rename_i hlen
        split at h
        · cases h
        · rename_i ds hs
          cases h
          obtain ⟨hb, hd⟩ := ih hs
          have hfirst : ((a :: b).take a.toNat).length = a.toNat := by rw [List.length_take]; omega
          have hfld : fld ((a :: b).take a.toNat) 0 = a.toNat := by rw [fld, List.getElem?_take_of_lt (by omega)]; rfl
          refine ⟨?_, List.forall_mem_cons.2 ⟨⟨by omega, hfld.trans hfirst.symm⟩, hd⟩⟩
          rw [List.flatten_cons, ← hb, List.take_append_drop]

/-- The descriptors before the first interface descriptor (R205). -/
theorem groupByInterface_fst (ds : List (List Byte)) : (groupByInterface ds).1 = upToInterface ds := by
  induction ds with
  | nil => rfl
  | cons d ds ih => by_cases h : fld d 1 = 0x04 <;> simp [groupByInterface, upToInterface, h, ih]

/-- An interface descriptor of the block, with the descriptors up to the next one (R205). -/
theorem mem_groupByInterface {ds : List (List Byte)} {g : List Byte × List (List Byte)}
    (h : g ∈ (groupByInterface ds).2) :
    ∃ pre post, ds = pre ++ g.1 :: post ∧ fld g.1 1 = 0x04 ∧ g.2 = upToInterface post := by
  induction ds with
  | nil => cases h
  | cons d ds ih =>
    by_cases hd : fld d 1 = 0x04
    · simp only [groupByInterface, if_pos hd, List.mem_cons] at h
      rcases h with rfl | h
      · exact ⟨[], ds, rfl, hd, groupByInterface_fst ds⟩
      · obtain ⟨pre, post, rfl, hg⟩ := ih h
        exact ⟨d :: pre, post, rfl, hg⟩
    · simp only [groupByInterface, if_neg hd] at h
      obtain ⟨pre, post, rfl, hg⟩ := ih h
      exact ⟨d :: pre, post, rfl, hg⟩

theorem length_groupByInterface (ds : List (List Byte)) :
    (groupByInterface ds).2.length = (ds.filter fun d => fld d 1 == 0x04).length := by
  induction ds with
  | nil => rfl
  | cons d ds ih => by_cases h : fld d 1 = 0x04 <;> simp [groupByInterface, h, ih]

/-- The IAD of the CDC function, with no interface descriptor of `IF_CDC_COMM` before it (R213). -/
theorem iadBefore_split {c : Params} {ds : List (List Byte)} (h : iadBefore c ds = true) :
    ∃ pre d post, ds = pre ++ d :: post ∧ fld d 1 = 0x0B ∧ d.length = 8 ∧ fld d 2 = c.ifCdcComm.toNat ∧ fld d 3 = 2 ∧
      ∀ x ∈ pre, ¬ (fld x 1 = 0x04 ∧ fld x 2 = c.ifCdcComm.toNat) := by
  induction ds with
  | nil => cases h
  | cons d ds ih =>
    unfold iadBefore at h
    split at h
    · cases h
    · rename_i hcomm
      split at h
      · rename_i hiad
        simp only [isDesc, Bool.and_eq_true, beq_iff_eq] at hiad
        obtain ⟨⟨⟨htype, hlen⟩, hif⟩, hcount⟩ := hiad
        exact ⟨[], d, ds, rfl, htype, hlen, hif, hcount, by simp⟩
      · obtain ⟨pre, x, post, rfl, htype, hlen, hif, hcount, hpre⟩ := ih h
        exact ⟨d :: pre, x, post, rfl, htype, hlen, hif, hcount, List.forall_mem_cons.2 ⟨hcomm, hpre⟩⟩

theorem nameIdxOk_iff {c : Params} {i : Nat} : nameIdxOk c i = true ↔ NameIndex c i := by
  simp only [nameIdxOk, Bool.or_eq_true, Bool.and_eq_true, beq_iff_eq, decide_eq_true_eq]
  rfl

/-! ## The configuration block (R202, R204, R205, R210-R213) -/

section
variable {c : Params} {h : List Byte} {ds : List (List Byte)}

/-- The header and its attributes (R202, R204, R211). -/
theorem configHeaderOk_iff : configHeaderOk c h = true ↔
    (h.length = 9 ∧ fld h 1 = 0x02 ∧ fld h 4 = c.numIf ∧ fld h 5 = 1 ∧ NameIndex c (fld h 6)) ∧
    fld h 2 + 256 * fld h 3 = c.configDesc.length ∧
    fld h 7 = 0x80 + 0x40 * c.selfPowered.toNat + 0x20 * c.remoteWakeupCapable.toNat := by
  have bit (b : Bool) (n : Nat) : (if b then n else 0) = n * b.toNat := by cases b <;> simp
  simp only [configHeaderOk, isDesc, bit, nameIdxOk_iff, Bool.and_eq_true, beq_iff_eq]
  tauto

/-- The one descriptor of an interface number (R205). -/
theorem interfaceOk_descriptor {n : Nat} (hn : interfaceOk c (groupByInterface ds).2 n = true) :
    ∃ pre d post, ds = pre ++ d :: post ∧ fld d 1 = 0x04 ∧ d.length = 9 ∧ fld d 2 = n ∧ fld d 3 = 0 ∧
      NameIndex c (fld d 8) ∧ fld d 4 = ((upToInterface post).filter fun x => fld x 1 == 0x05).length := by
  unfold interfaceOk at hn
  split at hn
  · rename_i g hg
    have hm : g ∈ (groupByInterface ds).2.filter fun g => fld g.1 2 == n := by simp [hg]
    obtain ⟨hm, hnum⟩ := List.mem_filter.1 hm
    obtain ⟨pre, post, rfl, htype, hbody⟩ := mem_groupByInterface hm
    simp only [Bool.and_eq_true, beq_iff_eq, nameIdxOk_iff, endpointDescs, hbody] at hn
    obtain ⟨⟨⟨hlen, halt⟩, hcount⟩, hname⟩ := hn
    exact ⟨pre, g.1, post, rfl, htype, hlen, by simpa using hnum, halt, hname, hcount⟩
  · cases hn

/-- The descriptor of an endpoint of the map, after its interface (R210). -/
theorem endpointOk_descriptor {e : EpId} {t : EpType} {dir : Dir} {m : EpMps} {i : BitVec 8} (h0 : e ≠ .ep0)
    (hx : entryOf c e = some ⟨t, .only dir, m, some i⟩) (he : endpointOk c ds (groupByInterface ds).2 e = true) :
    ∃ pre d post, ds = pre ++ d :: post ∧ fld d 1 = 0x04 ∧ fld d 2 = i.toNat ∧
      ∃ x ∈ upToInterface post, fld x 1 = 0x05 ∧ x.length = 7 ∧ fld x 2 = e.num + (if dir = .tx then 0x80 else 0) ∧
        fld x 3 % 4 = typeCode t ∧ fld x 4 + 256 * fld x 5 = packetSize c m := by
  simp only [endpointOk, hx, Option.any_some, Bool.and_eq_true, List.any_eq_true, beq_iff_eq] at he
  obtain ⟨-, g, hg, hif, x, hm, hd⟩ := he
  obtain ⟨pre, post, rfl, htype, hbody⟩ := mem_groupByInterface hg
  rw [endpointDescs, hbody] at hm
  obtain ⟨hm, h5⟩ := List.mem_filter.1 hm
  have hdir : dirOf c e = dir := by simp only [dirOf, hx]
  have hmps : mps c e = packetSize c m := by simp only [mps, if_neg h0, hx, packetSize_eq]
  simp only [describes, endpointAddress, hdir, hmps, Bool.and_eq_true, beq_iff_eq] at hd
  obtain ⟨⟨⟨hlen, haddr⟩, hcode⟩, hsize⟩ := hd
  exact ⟨pre, g.1, post, rfl, htype, hif, x, hm, by simpa using h5, hlen, haddr, hcode, hsize⟩

/-- The functional descriptors of the CDC interface (R213; log 39). -/
theorem functionalOk_descriptors (hf : functionalOk c (groupByInterface ds).2 = true) :
    ∃ pre d post, ds = pre ++ d :: post ∧ fld d 1 = 0x04 ∧ fld d 2 = c.ifCdcComm.toNat ∧
      4 ≤ ((upToInterface post).filter fun x => fld x 1 == 0x24).length := by
  simp only [functionalOk, List.any_eq_true, Bool.and_eq_true, beq_iff_eq, decide_eq_true_eq] at hf
  obtain ⟨g, hg, hif, hcount⟩ := hf
  obtain ⟨pre, post, rfl, htype, hbody⟩ := mem_groupByInterface hg
  exact ⟨pre, g.1, post, rfl, htype, hif, hbody ▸ hcount⟩

end

theorem configBlock_of_buildOk {c : Params} (hok : buildOk c = true) : ∃ h ds, ConfigBlock c h ds := by
  obtain ⟨-, -, hcfg, -⟩ := buildOk_descs hok
  unfold configDescOk at hcfg
  split at hcfg
  · rename_i h ds hs
    simp only [Bool.and_eq_true, beq_iff_eq, List.all_eq_true, List.mem_range, Bool.or_eq_true, bne_iff_ne,
      nameIdxOk_iff, configHeaderOk_iff, length_groupByInterface] at hcfg
    obtain ⟨⟨⟨⟨⟨⟨⟨⟨hheader, htotal, hattr⟩, hcount⟩, hif⟩, hepcount⟩, hep⟩, hiad⟩, hfunc⟩, hname⟩ := hcfg
    have hwalk := splitDescs_walk hs
    refine ⟨h, ds, hwalk, htotal, hheader, hattr, hcount, fun n hn => interfaceOk_descriptor (hif n hn), ?_, ?_,
      fun d hd => (hname d hd).neg_resolve_left, iadBefore_split hiad, functionalOk_descriptors hfunc⟩
    · rw [← length_nonControl hok, ← hepcount]; rfl
    · intro n t dir m i h1 hn hx
      obtain ⟨e, rfl, ho⟩ := other_of_num hok h1 hn
      have hcode : typeCode t = if t = .bulk then 2 else 3 := by
        obtain ⟨y, hy, hyok⟩ := client_entry hok ho.1 ho.2
        obtain rfl := Option.some.inj (hx.symm.trans hy)
        cases t with
        | control => simp [clientEntryOk] at hyok
        | bulk | interrupt => rfl
      exact hcode ▸ endpointOk_descriptor ho.1 hx (hep e (mem_nonControl.2 ho))
  · cases hcfg

/-! ## The regions (R81) -/

/-- Regions that are apart share no address. -/
theorem apart_disjoint {r q : Region} (h : apart r q = true) (a : Nat) :
    ¬ (InRange a r.base r.size ∧ InRange a q.base q.size) := by
  simp only [apart, decide_eq_true_eq] at h
  omega

theorem pairwiseApart_iff {l : List Region} : pairwiseApart l = true ↔ l.Pairwise fun r q => apart r q = true := by
  induction l with
  | nil => simp [pairwiseApart]
  | cons r l ih => simp [pairwiseApart, ih]

/-- The regions lie in the space, no buffer at address 0, and share no address (R81, R133). -/
theorem regions_of_buildOk {c : Params} (h : buildOk c = true) :
    (∀ r ∈ ramRegions c, 0 < r.base) ∧
    (∀ r ∈ ramRegions c ++ descRegions c, r.base + r.size ≤ 2 ^ 32) ∧
    (ramRegions c ++ descRegions c).Pairwise fun r q =>
      ∀ a, ¬ (InRange a r.base r.size ∧ InRange a q.base q.size) := by
  have hp := buildOk_placement h
  simp only [placementOk, Bool.and_eq_true, List.all_eq_true, inSpace, decide_eq_true_eq, pairwiseApart_iff] at hp
  obtain ⟨⟨⟨⟨hram, hdesc⟩, hcross⟩, hrams⟩, hdescs⟩ := hp
  refine ⟨fun r hr => (hram r hr).2, fun r hr => ?_, List.Pairwise.imp apart_disjoint (List.pairwise_append.2
    ⟨hrams, hdescs, fun r hr q hq => hcross r hr q (List.mem_append_left _ hq)⟩)⟩
  exact (List.mem_append.1 hr).elim (fun hr => (hram r hr).1) (hdesc r)

/-- Settles O46: a step asks for the build checks first, and each check is the property it stands for. -/
theorem buildChecksGateTheRun : Obligations.BuildChecksGateTheRun := by
  refine ⟨fun s h => if_neg (by simp [h]), fun c h => ?_⟩
  obtain ⟨hconf, hdev, -, hlang⟩ := buildOk_descs h
  refine ⟨⟨mapLegal_of_buildOk h, fun e he => notify_mps h (epOfRole_some.2 he)⟩, ?_, configBlock_of_buildOk h, ?_,
    regions_of_buildOk h⟩
  · simpa only [deviceDescOk, hconf, Bool.and_eq_true, Bool.or_eq_true, beq_iff_eq, and_assoc] using hdev
  · simpa only [langidOk, Bool.and_eq_true, decide_eq_true_eq, beq_iff_eq, and_assoc] using hlang

end Sys2Proof.Machine
end

section
/-! PROOFS. Power-on (R480): reading a slot and an SIE pointer right after INIT, for every configuration. -/

namespace Sys2Proof.Machine

theorem slot_powerOn (c : Params) (e : EpId) (d : Dir) (k : Bool) : slot (State.powerOn c) e d k = Slot.powerOn := by
  rw [slot, slots, State.powerOn, EpBank.get_tabulate]
  cases d <;> cases k <;> rfl

theorem sieOdd_powerOn (c : Params) (e : EpId) (d : Dir) :
    ((State.powerOn c).sie.odd.get e).get d = false := by
  rw [State.powerOn, EpBank.get_tabulate]
  cases d <;> rfl

/-- Settles O45: a bank filled with one record reads as that record at every endpoint; the other elements are the
fields of the power-on record, and `INIT` is that record with the kept fields of the run. -/
theorem powerOnState : Obligations.PowerOnState := by
  refine ⟨fun c => ?_, rfl, fun _ => rfl⟩
  exact ⟨rfl, rfl, fun e => EpBank.get_tabulate EndpointState.powerOn e, slot_powerOn c, sieOdd_powerOn c,
    rfl, rfl, rfl, rfl, rfl, rfl, rfl⟩

end Sys2Proof.Machine
end
